-- ==== Sys2Proof/Word.lean ====
section
/-! DEFINITION. The word types of the block: the widths that 00_scope.md section 5 and 10_state.md section 1 give. -/

namespace Sys2Proof

/-- A byte of a frame, a command operand, an entry of the query ROM. -/
abbrev Byte := BitVec 8

/-- A 16-bit value: a checksum, a table entry, a 2-byte group of a frame. -/
abbrev Half := BitVec 16

/-- A 32-bit value: the `dout` of a response, a register assembled from two groups. -/
abbrev Word := BitVec 32

/-- A command word: 12 bits, `op` in bits 11..8 and `arg` in bits 7..0 (30_encoding.md rule R55). -/
abbrev Cmd := BitVec 12

end Sys2Proof
end

