-- ==== Sys2Proof/Syntax.lean ====
section
/-! DEFINITION. The command set: one constructor per row of spec/opcode_table.json (30_encoding.md rule R56), and the
pseudo-instructions of rule R61. -/

namespace Sys2Proof

/-- The eleven commands. An operand is the 8-bit `arg`, used as it is (rules R55 and R57); which operands are legal is
said in WellFormed. -/
inductive Instr where
  /-- `CRC.INIT`, opcode 0x1 (rule R76). -/
  | crcInit
  /-- `CRC.UPD b`, opcode 0x2 (rule R77). -/
  | crcUpd (b : Byte)
  /-- `CRC.FIN`, opcode 0x3 (rule R78). -/
  | crcFin
  /-- `TBL i`, opcode 0x4 (rule R79). -/
  | tbl (i : Byte)
  /-- `QRY i`, opcode 0x5 (rule R89). -/
  | qry (i : Byte)
  /-- `FRM.CLR`, opcode 0x6 (rule R85). -/
  | frmClr
  /-- `FRM.PUSH b`, opcode 0x7 (rule R86). -/
  | frmPush (b : Byte)
  /-- `FRM.SFX`, opcode 0x8 (rule R87). -/
  | frmSfx
  /-- `FRM.VAL`, opcode 0x9 (rule R98). -/
  | frmVal
  /-- `FRM.DEC`, opcode 0xA (rule R101). -/
  | frmDec
  /-- `RD s`, opcode 0xB (rule R112). -/
  | rd (sel : Byte)
  deriving DecidableEq, Repr

/-- The pseudo-instructions of rule R61: each stands for a sequence of commands. -/
inductive Pseudo where
  /-- `CRC.MSG b0 ... bn-1`: the checksum of a byte sequence. -/
  | crcMsg (bytes : List Byte)
  /-- `FRM.LOAD b0 ... bn-1`: load a frame. -/
  | frmLoad (bytes : List Byte)
  /-- `FRM.CHECK b0 ... bn-1`: load a frame and validate it. -/
  | frmCheck (bytes : List Byte)
  /-- `FRM.SEAL b0 ... bn-1`: load bytes and append their trailer. -/
  | frmSeal (bytes : List Byte)
  /-- `QRY.ALL`: read the query frame. -/
  | qryAll
  /-- `RD.ALL`: read the Reading and the alert word. -/
  | rdAll
  deriving DecidableEq, Repr

end Sys2Proof
end

