-- ==== Sys2Proof/WellFormed.lean ====
section
/-! DEFINITION. Which commands are legal: the operand ranges of 30_encoding.md rules R57 and R58. -/

namespace Sys2Proof

/-- The check on the operand of `QRY`: an index of the query ROM, 0..7 (rules R57 and R58). -/
def queryIndexOk (i : Byte) : Bool := decide (i.toNat ≤ 7)

/-- The check on the operand of `RD`: a selector, 0..10 (rules R57 and R58). -/
def selectorOk (sel : Byte) : Bool := decide (sel.toNat ≤ 10)

/-- A command is legal when its operand is in the range rule R57 gives it. -/
def Instr.wellFormed : Instr → Bool
  | .crcInit => true
  | .crcUpd _ => true
  | .crcFin => true
  | .tbl _ => true
  | .qry i => queryIndexOk i
  | .frmClr => true
  | .frmPush _ => true
  | .frmSfx => true
  | .frmVal => true
  | .frmDec => true
  | .rd sel => selectorOk sel

end Sys2Proof
end

