-- ==== Sys2Proof/Decode.lean ====
section
/-! DEFINITION. The decoder of 12-bit command words, total, rejecting by name; after it the encoder, the expansion of the
pseudo-instructions and the host's table-word entry. All from 30_encoding.md rules R55 to R58 and R61. -/

namespace Sys2Proof

/-- Why a command word is illegal (rule R58). Every one of them is answered `IllegalCommand` by the block. -/
inductive Illegal where
  /-- `op` is 0x0, 0xC, 0xD, 0xE or 0xF. -/
  | reservedOpcode
  /-- A command without an operand came with `arg` other than 0. -/
  | nonzeroArg
  /-- `QRY` with `arg` above 7. -/
  | queryIndex
  /-- `RD` with `arg` above 10. -/
  | selector
  deriving DecidableEq, Repr

/-- The field `op = w[11:8]` (rule R55). -/
def opField (w : Cmd) : BitVec 4 := w.extractLsb' 8 4

/-- The field `arg = w[7:0]` (rule R55). -/
def argField (w : Cmd) : Byte := w.extractLsb' 0 8

/-- A command that takes no operand requires `arg = 0` (rule R55). -/
def noOperand (arg : Byte) (i : Instr) : Except Illegal Instr :=
  if arg = 0#8 then .ok i else .error .nonzeroArg

/-- The decoder: the opcode map of rule R56 with the illegal words of rule R58 refused by name. -/
def decode (w : Cmd) : Except Illegal Instr :=
  match (opField w).toNat with
  | 0x1 => noOperand (argField w) .crcInit
  | 0x2 => .ok (.crcUpd (argField w))
  | 0x3 => noOperand (argField w) .crcFin
  | 0x4 => .ok (.tbl (argField w))
  | 0x5 => if queryIndexOk (argField w) then .ok (.qry (argField w)) else .error .queryIndex
  | 0x6 => noOperand (argField w) .frmClr
  | 0x7 => .ok (.frmPush (argField w))
  | 0x8 => noOperand (argField w) .frmSfx
  | 0x9 => noOperand (argField w) .frmVal
  | 0xA => noOperand (argField w) .frmDec
  | 0xB => if selectorOk (argField w) then .ok (.rd (argField w)) else .error .selector
  | _ => .error .reservedOpcode

/-- The opcode of a command (rule R56). -/
def opcode : Instr → BitVec 4
  | .crcInit => 0x1#4
  | .crcUpd _ => 0x2#4
  | .crcFin => 0x3#4
  | .tbl _ => 0x4#4
  | .qry _ => 0x5#4
  | .frmClr => 0x6#4
  | .frmPush _ => 0x7#4
  | .frmSfx => 0x8#4
  | .frmVal => 0x9#4
  | .frmDec => 0xA#4
  | .rd _ => 0xB#4

/-- The `arg` field of a command: its operand, or 0 where it has none (rule R55). -/
def operand : Instr → Byte
  | .crcInit => 0#8
  | .crcUpd b => b
  | .crcFin => 0#8
  | .tbl i => i
  | .qry i => i
  | .frmClr => 0#8
  | .frmPush b => b
  | .frmSfx => 0#8
  | .frmVal => 0#8
  | .frmDec => 0#8
  | .rd sel => sel

/-- The encoder: the command word `op ++ arg` (rule R55). -/
def encode (i : Instr) : Cmd := opcode i ++ operand i

/-- The commands a pseudo-instruction stands for, in order (rule R61). -/
def expand : Pseudo → List Instr
  | .crcMsg bytes => .crcInit :: (bytes.map .crcUpd ++ [.crcFin])
  | .frmLoad bytes => .frmClr :: bytes.map .frmPush
  | .frmCheck bytes => .frmClr :: (bytes.map .frmPush ++ [.frmVal])
  | .frmSeal bytes => .frmClr :: (bytes.map .frmPush ++ [.frmSfx])
  | .qryAll => [.qry 0#8, .qry 1#8, .qry 2#8, .qry 3#8, .qry 4#8, .qry 5#8, .qry 6#8, .qry 7#8]
  | .rdAll => [.rd 4#8, .rd 5#8, .rd 6#8, .rd 7#8, .rd 8#8, .rd 9#8, .rd 10#8]

/-- The word the command port takes from a number `w` of which `nbits` bits are given: the port is 12 bits wide, and
bits above the ones given are 0 (DESIGN CHOICE, log entry 9: a number wider than the port loses its upper bits). -/
def portWord (nbits w : Nat) : Cmd := BitVec.ofNat 12 (w % 2 ^ nbits)

/-- The instruction the decoder reads from a table word (none where it refuses). -/
def decodeTableWord (nbits w : Nat) : Option Instr := (decode (portWord nbits w)).toOption

end Sys2Proof
end

