-- ==== Sys2Proof/Config.lean ====
section
/-! DEFINITION. The parameters of the block that 00_scope.md rule R5 calls fixed, the default values of its three
straps, and the one value that no rule states. The straps themselves are per-instance constants and stand in State. -/

namespace Sys2Proof.Config

/-- `POLY`: the reflected polynomial mask (rule R5). -/
def poly : Half := 0xA001#16

/-- `CRC_INIT`: the start value of the running checksum (rule R5). -/
def crcInit : Half := 0xFFFF#16

/-- `MIN_DEC_LEN`: the shortest frame that `FRM.DEC` decodes (rules R5 and R102). -/
abbrev minDecLen : Nat := 25

/-- The shortest frame that has a checksum trailer (rule R97). -/
abbrev minValLen : Nat := 2

/-- The default of the strap `SWAP_EN` (rules R5 and R14). -/
def swapEnDefault : Bool := true

/-- The default of the strap `ZERO_POWER_GUARD` (rules R5 and R14). -/
def zeroPowerGuardDefault : Bool := false

/-- The default of the strap `FRAME_CAP` (rules R5 and R15). -/
def frameCapDefault : Nat := 256

/-- The field scales of rule R5: a raw `VOLT`, `POWR` or `FREQ` counts tenths. -/
def scaleTenth : Nat := 10

/-- A raw `PFAC` counts hundredths (rule R5). -/
def scaleHundredth : Nat := 100

/-- A raw `CURR` or `ENRG` counts thousandths (rule R5). -/
def scaleThousandth : Nat := 1000

/-- What the 32 bits of `dout` carry where a rule responds a length of 2^32 or more. Rule R59 zero-extends values narrower
than 32 bits and states nothing for a wider one, which only a capacity of 2^32 bytes or more could produce: a free value
(DESIGN CHOICE, safe, log entry 13). -/
opaque lengthBeyondDout : Nat → Word

end Sys2Proof.Config
end

