-- ==== Sys2Proof/Machine/Rom.lean ====
section
/-! DEFINITION. The two ROMs: the lookup table `T` (10_state.md rule R16, 40_crc_engine.md rule R70) and the query
constant `Q` (10_state.md rule R17). Constants, not fields of State: rule R141 says that a model defines `T` as a
constant, and nothing writes either (log entry 10). -/

namespace Sys2Proof.Machine

/-- `k` iterations of the loop of rule R70 over the pair of the seed and the running value. -/
def tableLoop : Nat → Byte → Half → Half
  | 0, _, run => run
  | k + 1, seed, run =>
    tableLoop k (seed >>> 1)
      (if (seed.setWidth 16 ^^^ run).getLsbD 0 then (run >>> 1) ^^^ Config.poly else run >>> 1)

/-- `T[n]`, entry `n` of the table ROM (rule R70). -/
def tableEntry (n : Byte) : Half := tableLoop 8 n 0#16

/-- The eight bytes of the query frame in index order (rules R17 and R50). -/
def queryBytes : List Byte := [0x01#8, 0x04#8, 0x00#8, 0x00#8, 0x00#8, 0x0A#8, 0x70#8, 0x0D#8]

/-- `Q[i]`, byte `i` of the query ROM, for `i` in 0..7 (rule R17). -/
def queryByte (i : Byte) : Byte := queryBytes.getD i.toNat 0#8

end Sys2Proof.Machine
end

