-- ==== Sys2Proof/Machine/Crc.lean ====
section
/-! DEFINITION. The checksum as pure functions: 40_crc_engine.md section 2, 00_scope.md section 5.1, and the pure check
of 42_frame_codec.md rule R96. -/

namespace Sys2Proof.Machine

/-- The high byte of a 16-bit value (00_scope.md section 5.1). -/
def highByte (v : Half) : Byte := v.extractLsb' 8 8

/-- The low byte of a 16-bit value (00_scope.md section 5.1). -/
def lowByte (v : Half) : Byte := v.extractLsb' 0 8

/-- `swap16(v) = v[7:0] ++ v[15:8]` (00_scope.md section 5.1). -/
def swap16 (v : Half) : Half := lowByte v ++ highByte v

/-- `step(c, b)`: one checksum update (rule R73). -/
def crcStep (c : Half) (b : Byte) : Half := (c >>> 8) ^^^ tableEntry (lowByte (c ^^^ b.setWidth 16))

/-- `crc_raw(bytes)`: the raw checksum of a byte sequence (rule R74). -/
def crcRaw (bytes : List Byte) : Half := bytes.foldl crcStep Config.crcInit

/-- `crc16(bytes)`: the wire checksum, the source's `compute_crc` (rule R75). -/
def crc16 (bytes : List Byte) : Half := swap16 (crcRaw bytes)

/-- The two bytes that carry a wire checksum in a frame: high byte first (20_memory.md rule R32, 30_encoding.md rule
R53). -/
def trailerOf (wire : Half) : List Byte := [highByte wire, lowByte wire]

end Sys2Proof.Machine
end

