-- ==== Sys2Proof/Machine/State.lean ====
section
/-! DEFINITION. The state of the block (10_state.md), plain data; its reset (rule R19); the two closed types of reasons
for which a step can stop. -/

namespace Sys2Proof.Machine

/-- The status codes of a response (60_exceptions.md rule R120). -/
inductive Status where
  /-- Code 0: success. -/
  | ok
  /-- Code 1: the trailer differs from the checksum of the payload (rule R121). -/
  | crcMismatch
  /-- Code 2: the frame is well-formed but physically inconsistent (rule R123). -/
  | badValue
  /-- Code 3: too few bytes (rule R122). -/
  | shortFrame
  /-- Code 4: decode of a frame that has not been validated (rule R124). -/
  | notValidated
  /-- Code 5: the frame buffer has no room, or the frame was truncated (rule R124). -/
  | overflow
  /-- Code 6: read of a result register while there is no Reading (rule R124). -/
  | noReading
  /-- Code 7: the command word is illegal (rule R125). -/
  | illegalCommand
  deriving DecidableEq, Repr

/-- A response: the pair `(st, dout)` of 00_scope.md section 5.3 and 30_encoding.md rule R59. -/
structure Response where
  st : Status
  dout : Word
  deriving DecidableEq, Repr

/-- The seven result registers, written together by a successful `FRM.DEC` only (rule R11). -/
structure Results where
  /-- `VOLT`, raw unit 0.1 V. -/
  volt : Half
  /-- `CURR`, raw unit 0.001 A. -/
  curr : Word
  /-- `POWR`, raw unit 0.1 W. -/
  powr : Word
  /-- `ENRG`, raw unit 0.001 kWh. -/
  enrg : Word
  /-- `FREQ`, raw unit 0.1 Hz. -/
  freq : Half
  /-- `PFAC`, raw unit 0.01. -/
  pfac : Half
  /-- `ALRT`, the alert word (rule R111). -/
  alrt : Half
  deriving DecidableEq, Repr

/-- The frame buffer's bytes: (index, byte) pairs, indices strictly rising; an index not listed holds no byte yet. -/
abbrev Memory := List Host.Cell

/-- Every piece of state the spec gives the block (10_state.md section 1), and the model's own two fields `cmds` and
`out` for the command port and the response (log entry 1). The ROMs `T` and `Q` are constants: Machine/Rom.lean. -/
structure State where
  /-- `CRC`: the running checksum, raw (rule R10). -/
  crc : Half
  /-- `CRCOUT`: the last finalised checksum (rule R10). -/
  crcOut : Half
  /-- `LEN`: the number of bytes of the current frame, `0 <= LEN <= FRAME_CAP` (rule R15). A number, since rule R5 admits
  every capacity of 25 or more; the 9 bits of rule R15 hold it for every capacity up to 511 (DEDUCED, log entry 3). -/
  len : Nat
  /-- Flag `CRCOK` (rule R13). -/
  crcOk : Bool
  /-- Flag `RVALID` (rule R13). -/
  rValid : Bool
  /-- Flag `OVF` (rule R13). -/
  ovf : Bool
  /-- Flag `DIVZ` (rule R13). -/
  divZ : Bool
  /-- `VOLT`, `CURR`, `POWR`, `ENRG`, `FREQ`, `PFAC`, `ALRT` (rule R11). -/
  res : Results
  /-- `BUF`: the frame buffer (rule R15). -/
  buf : Memory
  /-- Strap `SWAP_EN` (rule R14). -/
  swapEn : Bool
  /-- Strap `ZERO_POWER_GUARD` (rule R14). -/
  zeroPowerGuard : Bool
  /-- Strap `FRAME_CAP`, the number of bytes of `BUF`: any value of 25 or more (00_scope.md rule R5). -/
  frameCap : Nat
  /-- The model's own: the command words the host presents, in order, the next one first (rules R6 and R39). -/
  cmds : List Cmd
  /-- The model's own: the response of the last step; none when that step took no command (rule R20). -/
  out : Option Response
  deriving DecidableEq, Repr

/-- Why a step stops. Neither reason is one of the spec's failures (those are status codes, rule R120): both mark
accesses that rule R36 says never happen, and no state that keeps the invariant of Safety.lean raises one. -/
inductive Fault where
  /-- Raised by a read of `BUF` at an index inside the buffer that nothing has written (rule R15 gives such a byte no
  value). Safe: the model stops where the block would use a byte the spec does not know. -/
  | bufUnwritten (index : Nat)
  /-- Raised by a read or write of `BUF` at an index that does not exist, at or beyond `FRAME_CAP` (rule R36). Safe:
  the spec has no such byte. -/
  | bufOutOfRange (index : Nat)
  deriving DecidableEq, Repr

/-- Why an instruction has no meaning. Every command has one, so no step answers with this. -/
inductive Refusal where
  /-- Raised by an arm of exec that has no meaning yet. Safe: nothing can be proved of that instruction. -/
  | notModelled (mnemonic : String)
  deriving DecidableEq, Repr

/-- The result registers after reset. The spec gives no value and says that a model must not pick zero (rule R19), so
every bit is one (DESIGN CHOICE, unsafe, log entry 4); `RVALID = 0` keeps them unreadable (rule R112). -/
def Results.atReset : Results :=
  { volt := 0xFFFF#16, curr := 0xFFFFFFFF#32, powr := 0xFFFFFFFF#32, enrg := 0xFFFFFFFF#32,
    freq := 0xFFFF#16, pfac := 0xFFFF#16, alrt := 0xFFFF#16 }

/-- The reset state of an instance wired with the given straps (rules R19 and R140): a reset leaves the straps as
wired and nothing else. -/
def State.resetWith (swapEn zeroPowerGuard : Bool) (frameCap : Nat) : State :=
  { crc := Config.crcInit, crcOut := 0xFFFF#16, len := 0,
    crcOk := false, rValid := false, ovf := false, divZ := false,
    res := Results.atReset, buf := [],
    swapEn := swapEn, zeroPowerGuard := zeroPowerGuard, frameCap := frameCap,
    cmds := [], out := none }

/-- The machine right after reset, with the straps at their defaults (rules R5 and R19). -/
def State.reset : State :=
  State.resetWith Config.swapEnDefault Config.zeroPowerGuardDefault Config.frameCapDefault

end Sys2Proof.Machine
end

