-- ==== Sys2Proof/Machine/Flags.lean ====
section
/-! DEFINITION. The four flags, their view as the word `FLAGS` (10_state.md rule R13), and the updates of flags that
the commands share. -/

namespace Sys2Proof.Machine

/-- `FLAGS = zext_32(DIVZ ++ OVF ++ RVALID ++ CRCOK)` (rule R13). -/
def State.flagsWord (s : State) : Word :=
  (BitVec.ofBool s.divZ ++ BitVec.ofBool s.ovf ++ BitVec.ofBool s.rValid ++ BitVec.ofBool s.crcOk).setWidth 32

/-- `CRCOK <- b`. -/
def State.setCrcOk (s : State) (b : Bool) : State := { s with crcOk := b }

/-- `RVALID <- b`. -/
def State.setRValid (s : State) (b : Bool) : State := { s with rValid := b }

/-- `OVF <- b`. -/
def State.setOvf (s : State) (b : Bool) : State := { s with ovf := b }

/-- `DIVZ <- b`. -/
def State.setDivZ (s : State) (b : Bool) : State := { s with divZ := b }

/-- Every command that changes the buffer clears `CRCOK` and `RVALID`, also when it fails (rule R13): the frame is no
longer the validated one, and a Reading decoded from it is withdrawn. -/
def State.withdrawFrame (s : State) : State := (s.setCrcOk false).setRValid false

end Sys2Proof.Machine
end

