-- ==== Sys2Proof/Machine/Ops.lean ====
section
/-! DEFINITION. The operations the commands share: the frame buffer's memory, access to registers, the response.
The block has no exceptions (60_exceptions.md rule R126): `State.respond` is the one way a command ends, and a failure
is a response whose status is not `OK`. -/

namespace Sys2Proof.Machine

/-! ### The frame buffer as a memory -/

/-- What an index of `BUF` that is not listed reads as: no value, since the spec gives none (10_state.md rules R15 and
R19, 93_implementation_defined.md U2; log entry 5). -/
def unlistedByte : Option Byte := none

/-- The byte listed at an index. -/
def memLookup (a : Nat) : Memory → Option Byte
  | [] => unlistedByte
  | c :: m => if a = c.1 then some c.2 else memLookup a m

/-- The memory with byte `b` at index `a`; the indices stay strictly rising. -/
def memInsert (a : Nat) (b : Byte) : Memory → Memory
  | [] => [(a, b)]
  | c :: m => if a < c.1 then (a, b) :: c :: m else if a = c.1 then (a, b) :: m else c :: memInsert a b m

/-- The canonical form of the memory: indices strictly rising. An unlisted index holds no value, so no entry can equal
what an unlisted index reads as. -/
abbrev Memory.wf (m : Memory) : Prop := List.Pairwise (fun c d => c.1 < d.1) m

/-- `BUF[a]` (00_scope.md section 5.2). -/
def State.readByte (s : State) (a : Nat) : Except Fault Byte :=
  if a < s.frameCap then
    match memLookup a s.buf with
    | some b => .ok b
    | none => .error (.bufUnwritten a)
  else .error (.bufOutOfRange a)

/-- `MemRead(a, n)`: the bytes `BUF[a], ..., BUF[a+n-1]` in that order (00_scope.md section 5.2). -/
def State.readBytes (s : State) (a : Nat) : Nat → Except Fault (List Byte)
  | 0 => .ok []
  | n + 1 =>
    match s.readByte a with
    | .error f => .error f
    | .ok b =>
      match s.readBytes (a + 1) n with
      | .error f => .error f
      | .ok bs => .ok (b :: bs)

/-- `BUF[a] <- b` (00_scope.md section 5.2). -/
def State.writeByte (s : State) (a : Nat) (b : Byte) : Except Fault State :=
  if a < s.frameCap then .ok { s with buf := memInsert a b s.buf } else .error (.bufOutOfRange a)

/-- `MemWrite(a, n, bytes)` with `n` the number of bytes (00_scope.md section 5.2). -/
def State.writeBytes (s : State) (a : Nat) : List Byte → Except Fault State
  | [] => .ok s
  | b :: bs =>
    match s.writeByte a b with
    | .error f => .error f
    | .ok t => t.writeBytes (a + 1) bs

/-- The frame: `BUF[0] .. BUF[LEN-1]` (00_scope.md section 6). -/
def State.frame (s : State) : Except Fault (List Byte) := s.readBytes 0 s.len

/-! ### Registers -/

/-- `CRC <- c`. -/
def State.setCrc (s : State) (c : Half) : State := { s with crc := c }

/-- `CRCOUT <- c`. -/
def State.setCrcOut (s : State) (c : Half) : State := { s with crcOut := c }

/-- A frame command leaves the raw checksum in `CRC` and its swap in `CRCOUT` (70_reset_and_hazards.md rule R146). -/
def State.leaveChecksum (s : State) (c : Half) : State := (s.setCrc c).setCrcOut (swap16 c)

/-- `LEN <- n`. -/
def State.setLen (s : State) (n : Nat) : State := { s with len := n }

/-- A length as the 32 bits of `dout` (30_encoding.md rule R59): zero-extended where it fits, free where it does not. -/
def lengthWord (n : Nat) : Word := if n < 2 ^ 32 then BitVec.ofNat 32 n else Config.lengthBeyondDout n

/-- The seven result registers, written together (10_state.md rule R11). -/
def State.setResults (s : State) (r : Results) : State := { s with res := r }

/-- The next command word is taken off the command port (20_memory.md rule R41; log entry 1). -/
def State.setCmds (s : State) (ws : List Cmd) : State := { s with cmds := ws }

/-- The response port (10_state.md rule R20; log entry 1). -/
def State.setOut (s : State) (r : Option Response) : State := { s with out := r }

/-! ### The end of a command -/

/-- The 4-bit code of a status (60_exceptions.md rule R120). -/
def Status.code : Status → BitVec 4
  | .ok => 0#4
  | .crcMismatch => 1#4
  | .badValue => 2#4
  | .shortFrame => 3#4
  | .notValidated => 4#4
  | .overflow => 5#4
  | .noReading => 6#4
  | .illegalCommand => 7#4

/-- `respond(S, d)`, and `raise S(d)` for a status other than `OK`: the command ends with the state changes made so far
and the response `(S, d)` (00_scope.md section 5.3, 60_exceptions.md rule R126). -/
def State.respond (s : State) (st : Status) (dout : Word) : Host.Outcome State Fault Refusal :=
  .next (s.setOut (some { st := st, dout := dout }))

/-- What an illegal command word does: no state change, response `(IllegalCommand, 0)` (30_encoding.md rule R58,
60_exceptions.md rule R125). -/
def State.illegalCommand (s : State) : Host.Outcome State Fault Refusal := s.respond .illegalCommand 0#32

/-- A command goes on with what an access to the buffer gives; where the access has no answer the step stops with the
access's fault. -/
def onOk {α : Type} (e : Except Fault α) (k : α → Host.Outcome State Fault Refusal) :
    Host.Outcome State Fault Refusal :=
  match e with
  | .ok a => k a
  | .error f => .fault f

end Sys2Proof.Machine
end

