-- ==== Sys2Proof/Machine/CrcEngine.lean ====
section
/-! DEFINITION. The commands of the CRC engine: 40_crc_engine.md section 3. -/

namespace Sys2Proof.Machine

/-- `CRC.INIT` (rule R76). -/
def execCrcInit (s : State) : Host.Outcome State Fault Refusal :=
  (s.setCrc Config.crcInit).respond .ok (Config.crcInit.setWidth 32)

/-- `CRC.UPD b` (rule R77). -/
def execCrcUpd (b : Byte) (s : State) : Host.Outcome State Fault Refusal :=
  let c := crcStep s.crc b
  (s.setCrc c).respond .ok (c.setWidth 32)

/-- `CRC.FIN` (rule R78). -/
def execCrcFin (s : State) : Host.Outcome State Fault Refusal :=
  let out := swap16 s.crc
  (s.setCrcOut out).respond .ok (out.setWidth 32)

/-- `TBL i` (rule R79). -/
def execTbl (i : Byte) (s : State) : Host.Outcome State Fault Refusal :=
  s.respond .ok ((tableEntry i).setWidth 32)

end Sys2Proof.Machine
end

