-- ==== Sys2Proof/Machine/FrameBuffer.lean ====
section
/-! DEFINITION. The commands on the frame buffer and the query ROM: 41_frame_buffer.md. -/

namespace Sys2Proof.Machine

/-- `FRM.CLR` (rule R85). The bytes of `BUF` are not erased. -/
def execFrmClr (s : State) : Host.Outcome State Fault Refusal :=
  ((s.setLen 0).withdrawFrame.setOvf false).respond .ok 0#32

/-- `FRM.PUSH b` (rule R86). -/
def execFrmPush (b : Byte) (s : State) : Host.Outcome State Fault Refusal :=
  if s.len = s.frameCap then
    (s.withdrawFrame.setOvf true).respond .overflow (lengthWord s.len)
  else
    onOk (s.withdrawFrame.writeByte s.len b) fun t =>
      (t.setLen (s.len + 1)).respond .ok (lengthWord (s.len + 1))

/-- `FRM.SFX` (rule R87). -/
def execFrmSfx (s : State) : Host.Outcome State Fault Refusal :=
  if s.ovf = true ∨ s.len + 2 > s.frameCap then
    (s.withdrawFrame.setOvf true).respond .overflow 0#32
  else
    onOk s.frame fun bytes =>
      let c := crcRaw bytes
      let wire := swap16 c
      onOk ((s.withdrawFrame.leaveChecksum c).writeBytes s.len (trailerOf wire)) fun t =>
        (t.setLen (s.len + 2)).respond .ok (wire.setWidth 32)

/-- `QRY i` (rule R89); an index above 7 makes an illegal word (rule R58). -/
def execQry (i : Byte) (s : State) : Host.Outcome State Fault Refusal :=
  if queryIndexOk i then s.respond .ok ((queryByte i).setWidth 32) else s.illegalCommand

end Sys2Proof.Machine
end

