-- ==== Sys2Proof/Machine/Operands.lean ====
section
/-! DEFINITION. The operands beyond a plain byte: the registers `RD` selects (30_encoding.md rule R57) and the groups
and fields of a reply frame that `FRM.DEC` reads (30_encoding.md rule R52, 20_memory.md rules R30 and R31). -/

namespace Sys2Proof.Machine

/-- The register that selector `sel` of `RD` names, zero-extended to 32 bits, and whether reading it needs `RVALID = 1`;
none for a selector that rule R58 makes illegal (rule R57). -/
def State.selected (s : State) (sel : Byte) : Option (Bool × Word) :=
  match sel.toNat with
  | 0 => some (false, s.crc.setWidth 32)
  | 1 => some (false, s.crcOut.setWidth 32)
  | 2 => some (false, lengthWord s.len)
  | 3 => some (false, s.flagsWord)
  | 4 => some (true, s.res.volt.setWidth 32)
  | 5 => some (true, s.res.curr)
  | 6 => some (true, s.res.powr)
  | 7 => some (true, s.res.enrg)
  | 8 => some (true, s.res.freq.setWidth 32)
  | 9 => some (true, s.res.pfac.setWidth 32)
  | 10 => some (true, s.res.alrt.setWidth 32)
  | _ => none

/-- `BE16(a)`: the group at offset `a`, the byte at the lower offset the more significant (20_memory.md rule R30). -/
def State.readGroup (s : State) (a : Nat) : Except Fault Half := do
  let hi ← s.readByte a
  let lo ← s.readByte (a + 1)
  pure (hi ++ lo)

/-- `pair(a)`: the 32-bit field whose groups lie at `a` and `a + 2`, in the order `SWAP_EN` selects (42_frame_codec.md
rule R104). -/
def State.readPair (s : State) (a : Nat) : Except Fault Word := do
  let first ← s.readGroup a
  let second ← s.readGroup (a + 2)
  pure (if s.swapEn then second ++ first else first ++ second)

/-- The seven fields of the reply frame in the buffer, at their fixed offsets (30_encoding.md rule R52, 42_frame_codec.md
rules R103 and R104). -/
def State.readFields (s : State) : Except Fault Results := do
  let v ← s.readGroup 3
  let i ← s.readPair 5
  let p ← s.readPair 9
  let e ← s.readPair 13
  let f ← s.readGroup 17
  let pf ← s.readGroup 19
  let al ← s.readGroup 21
  pure { volt := v, curr := i, powr := p, enrg := e, freq := f, pfac := pf, alrt := al }

/-- The plausibility gate rejects, for a raw power other than 0: `2 * abs(1000*p - i*v) > 1000*p` in unbounded integers
(42_frame_codec.md rule R105). -/
def gateRejects (v : Half) (i p : Word) : Bool :=
  decide (2 * (1000 * (p.toNat : Int) - (i.toNat : Int) * (v.toNat : Int)).natAbs > 1000 * p.toNat)

end Sys2Proof.Machine
end

