-- ==== Sys2Proof/Machine/FrameCodec.lean ====
section
/-! DEFINITION. The commands of the frame codec: validation, decoding and read-out, 42_frame_codec.md. -/

namespace Sys2Proof.Machine

/-- The end of `FRM.VAL` once the checksum `c` of the payload is computed and the trailer `t0 t1` read: both bytes must
match (rules R96 and R98). -/
def judgeTrailer (s : State) (c : Half) (t0 t1 : Byte) : Host.Outcome State Fault Refusal :=
  let wire := swap16 c
  let u := s.leaveChecksum c
  if highByte wire = t0 ∧ lowByte wire = t1 then
    (u.setCrcOk true).respond .ok (wire.setWidth 32)
  else
    (u.setCrcOk false).respond .crcMismatch (wire.setWidth 32)

/-- `FRM.VAL` (rule R98). -/
def execFrmVal (s : State) : Host.Outcome State Fault Refusal :=
  if s.ovf then
    (s.setCrcOk false).respond .overflow 0#32
  else if s.len < Config.minValLen then
    (s.setCrcOk false).respond .shortFrame 0#32
  else
    let n := s.len - 2
    onOk (s.readBytes 0 n) fun payload =>
      onOk (s.readByte n) fun t0 =>
        onOk (s.readByte (n + 1)) fun t1 =>
          judgeTrailer s (crcRaw payload) t0 t1

/-- A decode that succeeds writes the seven result registers and sets `RVALID` (rule R101). -/
def acceptReading (s : State) (r : Results) : Host.Outcome State Fault Refusal :=
  ((s.setResults r).setRValid true).respond .ok 0#32

/-- The end of `FRM.DEC` once the fields are extracted: zero power, then the gate, then success (rules R101, R105 and
R106). -/
def judgeFields (s : State) (r : Results) : Host.Outcome State Fault Refusal :=
  if r.powr = 0#32 then
    if s.zeroPowerGuard then acceptReading s r
    else ((s.setDivZ true).setRValid false).respond .badValue 0#32
  else if gateRejects r.volt r.curr r.powr then
    (s.setRValid false).respond .badValue 0#32
  else acceptReading s r

/-- `FRM.DEC` (rule R101). -/
def execFrmDec (s : State) : Host.Outcome State Fault Refusal :=
  if s.crcOk = false then
    ((s.setDivZ false).setRValid false).respond .notValidated 0#32
  else if s.len < Config.minDecLen then
    ((s.setDivZ false).setRValid false).respond .shortFrame 0#32
  else
    onOk s.readFields (judgeFields (s.setDivZ false))

/-- `RD s` (rule R112); a selector above 10 makes an illegal word (rule R58). -/
def execRd (sel : Byte) (s : State) : Host.Outcome State Fault Refusal :=
  match s.selected sel with
  | none => s.illegalCommand
  | some (needsReading, value) =>
    if needsReading && !s.rValid then s.respond .noReading 0#32 else s.respond .ok value

end Sys2Proof.Machine
end

