-- ==== Sys2Proof/Machine/Dispatch.lean ====
section
/-! DEFINITION. One arm per command, each one direct call of its meaning. -/

namespace Sys2Proof.Machine

def exec (i : Instr) (s : State) : Host.Outcome State Fault Refusal :=
  match i with
  | .crcInit => Sys2Proof.Machine.execCrcInit s
  | .crcUpd b => Sys2Proof.Machine.execCrcUpd b s
  | .crcFin => Sys2Proof.Machine.execCrcFin s
  | .tbl k => Sys2Proof.Machine.execTbl k s
  | .qry k => Sys2Proof.Machine.execQry k s
  | .frmClr => Sys2Proof.Machine.execFrmClr s
  | .frmPush b => Sys2Proof.Machine.execFrmPush b s
  | .frmSfx => Sys2Proof.Machine.execFrmSfx s
  | .frmVal => Sys2Proof.Machine.execFrmVal s
  | .frmDec => Sys2Proof.Machine.execFrmDec s
  | .rd sel => Sys2Proof.Machine.execRd sel s

end Sys2Proof.Machine
end

