-- ==== Sys2Proof/Machine/Step.lean ====
section
/-! DEFINITION. One step: the block takes the next command word from the command port, does the whole command, and
leaves its response (00_scope.md rule R4, 20_memory.md rules R39 and R41). -/

namespace Sys2Proof.Machine

/-- One step. With no word on the port the block does nothing and responds nothing (DESIGN CHOICE, log entry 2). An
illegal word is answered `IllegalCommand` (30_encoding.md rule R58). A legal word is executed. -/
def step (s : State) : Host.Outcome State Fault Refusal :=
  match s.cmds with
  | [] => .next (s.setOut none)
  | w :: ws =>
    match decode w with
    | .error _ => (s.setCmds ws).illegalCommand
    | .ok i => exec i (s.setCmds ws)

/-- The host presents the word of an instruction: it becomes the next word on the command port. -/
def State.withFetchWord (s : State) (nbits w : Nat) : State := s.setCmds (portWord nbits w :: s.cmds)

end Sys2Proof.Machine
end

