-- ==== Sys2Proof/Machine/Assembler.lean ====
section
/-! DEFINITION. The assembler syntax of 30_encoding.md rules R60 and R61, as functions on lists of characters. It has no
effect on the block (92_eei_decisions.md D22). What the spec leaves open about white space, empty lines and the case of
hexadecimal digits is in log entry 12. -/

namespace Sys2Proof.Machine

/-- Why a line is rejected. -/
inductive AsmError where
  /-- The first word is no mnemonic of rule R56 or R61. -/
  | unknownMnemonic
  /-- A word in operand place is no number of rule R60 and no selector name. -/
  | badOperand
  /-- Too many operands, or none where the command takes one. -/
  | operandCount
  /-- The operand makes the word illegal (rules R58 and R60). -/
  | illegal (why : Illegal)
  deriving DecidableEq, Repr

/-- A space or a tab separates words. -/
def asmIsSpace (c : Char) : Bool := c = ' ' || c = '\t'

/-- `;` starts a comment to the end of the line (rule R60). -/
def asmStripComment (line : List Char) : List Char := line.takeWhile (· ≠ ';')

/-- The words of a line; `acc` is the word being read, reversed. -/
def asmWordsFrom (acc : List Char) : List Char → List (List Char)
  | [] => if acc = [] then [] else [acc.reverse]
  | c :: cs =>
    if asmIsSpace c then
      if acc = [] then asmWordsFrom [] cs else acc.reverse :: asmWordsFrom [] cs
    else asmWordsFrom (c :: acc) cs

/-- The words of a line without its comment. -/
def asmWords (line : List Char) : List (List Char) := asmWordsFrom [] (asmStripComment line)

/-- The value of a digit in a base up to 16. -/
def asmDigit (base : Nat) (c : Char) : Option Nat :=
  let n := c.toNat
  let d := if 48 ≤ n ∧ n ≤ 57 then some (n - 48)
    else if 65 ≤ n ∧ n ≤ 70 then some (n - 55)
    else if 97 ≤ n ∧ n ≤ 102 then some (n - 87)
    else none
  d.filter (· < base)

/-- The value of a sequence of digits, continuing from `acc`. -/
def asmDigits (base acc : Nat) : List Char → Option Nat
  | [] => some acc
  | c :: cs => (asmDigit base c).bind fun d => asmDigits base (acc * base + d) cs

/-- An operand number: decimal, or hexadecimal with `0x` (rule R60); at most 255, since `arg` has 8 bits (rule R55). -/
def asmNumber (word : List Char) : Option Byte :=
  let n := match word with
    | [] => none
    | '0' :: 'x' :: [] => none
    | '0' :: 'x' :: ds => asmDigits 16 0 ds
    | ds => asmDigits 10 0 ds
  (n.filter (· < 256)).map (BitVec.ofNat 8)

/-- The selector names of `RD` (rules R57 and R60). -/
def asmSelectors : List (List Char × Byte) :=
  [("CRC".toList, 0#8), ("CRCOUT".toList, 1#8), ("LEN".toList, 2#8), ("FLAGS".toList, 3#8), ("VOLT".toList, 4#8),
   ("CURR".toList, 5#8), ("POWR".toList, 6#8), ("ENRG".toList, 7#8), ("FREQ".toList, 8#8), ("PFAC".toList, 9#8),
   ("ALRT".toList, 10#8)]

/-- The mnemonics with their opcodes, and whether the command takes an operand (rule R56). -/
def asmMnemonics : List (List Char × BitVec 4 × Bool) :=
  [("CRC.INIT".toList, 0x1#4, false), ("CRC.UPD".toList, 0x2#4, true), ("CRC.FIN".toList, 0x3#4, false),
   ("TBL".toList, 0x4#4, true), ("QRY".toList, 0x5#4, true), ("FRM.CLR".toList, 0x6#4, false),
   ("FRM.PUSH".toList, 0x7#4, true), ("FRM.SFX".toList, 0x8#4, false), ("FRM.VAL".toList, 0x9#4, false),
   ("FRM.DEC".toList, 0xA#4, false), ("RD".toList, 0xB#4, true)]

/-- The operand of a command with the given opcode: for `RD` a selector name will do (rule R60). -/
def asmOperand (op : BitVec 4) (word : List Char) : Option Byte :=
  if op = 0xB#4 then (asmSelectors.lookup word).or (asmNumber word) else asmNumber word

/-- A line of one command: the word is `op * 256 + operand`, and a word that rule R58 makes illegal is rejected
(rule R60). -/
def asmCommand (op : BitVec 4) (takesOperand : Bool) (operands : List (List Char)) : Except AsmError (List Instr) :=
  let arg : Except AsmError Byte := match operands with
    | [] => if takesOperand then .error .operandCount else .ok 0#8
    | [w] => match asmOperand op w with
      | none => .error .badOperand
      | some b => .ok b
    | _ => .error .operandCount
  match arg with
  | .error e => .error e
  | .ok b => match decode (op ++ b) with
    | .error why => .error (.illegal why)
    | .ok i => .ok [i]

/-- The byte operands of a pseudo-instruction (rule R61). -/
def asmBytes : List (List Char) → Option (List Byte)
  | [] => some []
  | w :: ws => (asmNumber w).bind fun b => (asmBytes ws).map (b :: ·)

/-- The pseudo-instruction of a line, where its first word names one (rule R61). -/
def asmPseudo (name : List Char) (operands : List (List Char)) : Option (Except AsmError Pseudo) :=
  let withBytes (p : List Byte → Pseudo) : Except AsmError Pseudo := match asmBytes operands with
    | none => .error .badOperand
    | some bs => .ok (p bs)
  let alone (p : Pseudo) : Except AsmError Pseudo := if operands = [] then .ok p else .error .operandCount
  if name = "CRC.MSG".toList then some (withBytes .crcMsg)
  else if name = "FRM.LOAD".toList then some (withBytes .frmLoad)
  else if name = "FRM.CHECK".toList then some (withBytes .frmCheck)
  else if name = "FRM.SEAL".toList then some (withBytes .frmSeal)
  else if name = "QRY.ALL".toList then some (alone .qryAll)
  else if name = "RD.ALL".toList then some (alone .rdAll)
  else none

/-- One line of assembler text: the commands it stands for, none for a line that is empty but for a comment
(rules R60 and R61). -/
def assembleLine (line : List Char) : Except AsmError (List Instr) :=
  match asmWords line with
  | [] => .ok []
  | name :: operands =>
    match asmMnemonics.lookup name with
    | some (op, takesOperand) => asmCommand op takesOperand operands
    | none =>
      match asmPseudo name operands with
      | some (.ok p) => .ok (expand p)
      | some (.error e) => .error e
      | none => .error .unknownMnemonic

/-- A program text, one command a line (rule R60): the words of its lines in order. -/
def assemble : List (List Char) → Except AsmError (List Cmd)
  | [] => .ok []
  | line :: lines =>
    match assembleLine line with
    | .error e => .error e
    | .ok is =>
      match assemble lines with
      | .error e => .error e
      | .ok ws => .ok (is.map encode ++ ws)

/-- A hexadecimal digit, upper case. -/
def hexDigit (d : BitVec 4) : Char :=
  if d.toNat < 10 then Char.ofNat (48 + d.toNat) else Char.ofNat (55 + d.toNat)

/-- A command word written as three hexadecimal digits (rule R60). -/
def hexWord (w : Cmd) : List Char :=
  [hexDigit (w.extractLsb' 8 4), hexDigit (w.extractLsb' 4 4), hexDigit (w.extractLsb' 0 4)]

/-- The mnemonic of a command (rule R56). -/
def mnemonic : Instr → List Char
  | .crcInit => "CRC.INIT".toList
  | .crcUpd _ => "CRC.UPD".toList
  | .crcFin => "CRC.FIN".toList
  | .tbl _ => "TBL".toList
  | .qry _ => "QRY".toList
  | .frmClr => "FRM.CLR".toList
  | .frmPush _ => "FRM.PUSH".toList
  | .frmSfx => "FRM.SFX".toList
  | .frmVal => "FRM.VAL".toList
  | .frmDec => "FRM.DEC".toList
  | .rd _ => "RD".toList

/-- The operand of a command as the line shows it: hexadecimal with `0x`, nothing for a command without one. -/
def operandText (b : Byte) : List Char :=
  [' ', '0', 'x', hexDigit (b.extractLsb' 4 4), hexDigit (b.extractLsb' 0 4)]

/-- The line of a command (rule R60). -/
def printLine : Instr → List Char
  | .crcInit => mnemonic .crcInit
  | .crcUpd b => mnemonic (.crcUpd b) ++ operandText b
  | .crcFin => mnemonic .crcFin
  | .tbl i => mnemonic (.tbl i) ++ operandText i
  | .qry i => mnemonic (.qry i) ++ operandText i
  | .frmClr => mnemonic .frmClr
  | .frmPush b => mnemonic (.frmPush b) ++ operandText b
  | .frmSfx => mnemonic .frmSfx
  | .frmVal => mnemonic .frmVal
  | .frmDec => mnemonic .frmDec
  | .rd sel => mnemonic (.rd sel) ++ operandText sel

end Sys2Proof.Machine
end

