-- ==== Sys2Proof/Machine/Reading.lean ====
section
/-! DEFINITION. The source's `validate_crc(frame)` and `decode(frame)` as pure functions on a frame, a list of bytes:
42_frame_codec.md rules R96 and R103 to R108. The commands of Machine/FrameCodec.lean compute on the buffer instead;
that the two agree is a statement for the provers. -/

namespace Sys2Proof.Machine

/-- `trailer_ok(F)` for a frame of at least two bytes (rule R96): the last two bytes are the wire checksum of all the
bytes before them, high byte first. -/
def trailerOk (F : List Byte) : Bool :=
  let payload := F.take (F.length - 2)
  decide (highByte (crc16 payload) = F.getD (F.length - 2) 0#8) &&
    decide (lowByte (crc16 payload) = F.getD (F.length - 1) 0#8)

/-- `BE16(a)` as a number: `F[a] * 256 + F[a+1]` (20_memory.md rule R30). -/
def groupAt (F : List Byte) (a : Nat) : Nat := (F.getD a 0#8).toNat * 256 + (F.getD (a + 1) 0#8).toNat

/-- `pair(a)` as a number (rule R104). -/
def pairAt (swap : Bool) (F : List Byte) (a : Nat) : Nat :=
  if swap then groupAt F (a + 2) * 65536 + groupAt F a else groupAt F a * 65536 + groupAt F (a + 2)

/-- The seven fields of a reply frame of at least 25 bytes (rules R103 and R104). -/
def fieldsOf (swap : Bool) (F : List Byte) : Results :=
  { volt := BitVec.ofNat 16 (groupAt F 3)
    curr := BitVec.ofNat 32 (pairAt swap F 5)
    powr := BitVec.ofNat 32 (pairAt swap F 9)
    enrg := BitVec.ofNat 32 (pairAt swap F 13)
    freq := BitVec.ofNat 16 (groupAt F 17)
    pfac := BitVec.ofNat 16 (groupAt F 19)
    alrt := BitVec.ofNat 16 (groupAt F 21) }

/-- The fields make a Reading: for a raw power other than 0 when `500*p <= i*v <= 1500*p` (rule R105), for raw power 0
when the guard strap is 1 (rule R106). -/
def accepted (guard : Bool) (r : Results) : Bool :=
  if r.powr = 0#32 then guard
  else decide (500 * r.powr.toNat ≤ r.curr.toNat * r.volt.toNat) &&
    decide (r.curr.toNat * r.volt.toNat ≤ 1500 * r.powr.toNat)

/-! The quantities of the Reading as exact rationals (rule R108). -/

/-- `voltage = VOLT / 10`, in volts. -/
def Results.voltage (r : Results) : ℚ := (r.volt.toNat : ℚ) / Config.scaleTenth

/-- `current = CURR / 1000`, in amperes. -/
def Results.current (r : Results) : ℚ := (r.curr.toNat : ℚ) / Config.scaleThousandth

/-- `power = POWR / 10`, in watts. -/
def Results.power (r : Results) : ℚ := (r.powr.toNat : ℚ) / Config.scaleTenth

/-- `energy = ENRG / 1000`, in kilowatt-hours. -/
def Results.energy (r : Results) : ℚ := (r.enrg.toNat : ℚ) / Config.scaleThousandth

/-- `frequency = FREQ / 10`, in hertz. -/
def Results.frequency (r : Results) : ℚ := (r.freq.toNat : ℚ) / Config.scaleTenth

/-- `power_factor = PFAC / 100`. -/
def Results.powerFactor (r : Results) : ℚ := (r.pfac.toNat : ℚ) / Config.scaleHundredth

/-- The source's `delta = (power - current * voltage) / power`, for a power other than 0 (rule R105). -/
def Results.delta (r : Results) : ℚ := (r.power - r.current * r.voltage) / r.power

end Sys2Proof.Machine
end

