-- ==== Sys2Proof/Safety.lean ====
section
/-! DEFINITION. The terms the statements use: the invariant of the reachable states, what a host can and cannot learn of
a state, the illegal words, and which command may write which piece of state. -/

namespace Sys2Proof.Machine

/-- The invariant of every reachable state: the bounds and the written bytes of 10_state.md rule R15, and the invariant
of the flags of rule R13 (a readable Reading is the decoding of the validated frame now in the buffer). -/
structure State.Inv (s : State) : Prop where
  /-- The memory keeps its canonical form. -/
  bufCanonical : Memory.wf s.buf
  /-- Every listed byte lies inside the buffer. -/
  bufInside : ∀ c ∈ s.buf, c.1 < s.frameCap
  /-- `FRAME_CAP` is at least 25 (00_scope.md rule R5). -/
  capAtLeast25 : 25 ≤ s.frameCap
  /-- `LEN <= FRAME_CAP` (rule R15). -/
  lenInside : s.len ≤ s.frameCap
  /-- Every index below `LEN` has been written (rule R15). -/
  frameWritten : ∀ k, k < s.len → ∃ b, s.readByte k = .ok b
  /-- `CRCOK = 1` implies `OVF = 0`, `LEN >= 2` and a matching trailer (rule R13). -/
  validated : s.crcOk = true → s.ovf = false ∧ 2 ≤ s.len ∧ ∃ F, s.frame = .ok F ∧ trailerOk F = true
  /-- `RVALID = 1` implies `CRCOK = 1` (rule R13), and the result registers are the accepted decoding of the frame. -/
  reading : s.rValid = true → s.crcOk = true ∧ s.divZ = false ∧ 25 ≤ s.len ∧
    ∃ F, s.frame = .ok F ∧ s.res = fieldsOf s.swapEn F ∧ accepted s.zeroPowerGuard s.res = true
  /-- `OVF` is set only when there was no room for two more bytes, and nothing shortens a frame but `FRM.CLR`. -/
  truncated : s.ovf = true → s.frameCap ≤ s.len + 1

/-- Two states a host cannot tell apart by what they hold: they agree on everything but the result registers while
`RVALID = 0` and the bytes of `BUF` at or beyond `LEN` (93_implementation_defined.md U1 and U2). -/
structure State.SameVisible (s t : State) : Prop where
  crc : s.crc = t.crc
  crcOut : s.crcOut = t.crcOut
  len : s.len = t.len
  crcOk : s.crcOk = t.crcOk
  rValid : s.rValid = t.rValid
  ovf : s.ovf = t.ovf
  divZ : s.divZ = t.divZ
  swapEn : s.swapEn = t.swapEn
  zeroPowerGuard : s.zeroPowerGuard = t.zeroPowerGuard
  frameCap : s.frameCap = t.frameCap
  cmds : s.cmds = t.cmds
  out : s.out = t.out
  res : s.rValid = true → s.res = t.res
  bytes : ∀ k, k < s.len → s.readByte k = t.readByte k

/-- Two outcomes a host cannot tell apart: next states of the same visible contents (the response among them), or the
same reason to stop. -/
def sameOutcome (o p : Host.Outcome State Fault Refusal) : Prop :=
  match o, p with
  | .next s, .next t => s.SameVisible t
  | .fault f, .fault g => f = g
  | .refused f, .refused g => f = g
  | _, _ => False

/-- Rule R58 in its own words: the illegal command words, from the fields `op` and `arg` of the word as numbers. -/
def isIllegalWord (w : Cmd) : Prop :=
  let op := w.toNat / 256
  let arg := w.toNat % 256
  op ∈ [0x0, 0xC, 0xD, 0xE, 0xF] ∨ (op ∈ [0x1, 0x3, 0x6, 0x8, 0x9, 0xA] ∧ arg ≠ 0) ∨ (op = 0x5 ∧ arg > 7) ∨
    (op = 0xB ∧ arg > 10)

/-- How many of the 256 words with a given opcode the decoder accepts. -/
def legalWithOpcode (op : Nat) : Nat :=
  ((List.range 256).filter fun arg => (decode (BitVec.ofNat 12 (op * 256 + arg))).toBool).length

/-- The words of a pseudo-instruction (30_encoding.md rules R60 and R61). -/
def wordsOf (p : Pseudo) : List Cmd := (expand p).map encode

/-- The commands that write `CRC` (10_state.md section 1). -/
def writesCrc : Instr → Bool
  | .crcInit | .crcUpd _ | .frmSfx | .frmVal => true
  | .crcFin | .tbl _ | .qry _ | .frmClr | .frmPush _ | .frmDec | .rd _ => false

/-- The commands that write `CRCOUT` (10_state.md section 1). -/
def writesCrcOut : Instr → Bool
  | .crcFin | .frmSfx | .frmVal => true
  | .crcInit | .crcUpd _ | .tbl _ | .qry _ | .frmClr | .frmPush _ | .frmDec | .rd _ => false

/-- The commands that write `LEN` (10_state.md section 1). -/
def writesLen : Instr → Bool
  | .frmClr | .frmPush _ | .frmSfx => true
  | .crcInit | .crcUpd _ | .crcFin | .tbl _ | .qry _ | .frmVal | .frmDec | .rd _ => false

/-- The commands that write `BUF` (10_state.md section 1). -/
def writesBuf : Instr → Bool
  | .frmPush _ | .frmSfx => true
  | .crcInit | .crcUpd _ | .crcFin | .tbl _ | .qry _ | .frmClr | .frmVal | .frmDec | .rd _ => false

/-- The commands that change no state at all, only respond: `TBL`, `QRY` and `RD` (20_memory.md rule R35). -/
def onlyResponds : Instr → Bool
  | .tbl _ | .qry _ | .rd _ => true
  | .crcInit | .crcUpd _ | .crcFin | .frmClr | .frmPush _ | .frmSfx | .frmVal | .frmDec => false

/-- A command whose response is `OK`. -/
def State.respondedOk (t : State) : Prop := ∃ d, t.out = some { st := .ok, dout := d }

/-- The statuses a command may respond, `IllegalCommand` apart (60_exceptions.md rule R120, last column). -/
def mayRespond : Instr → List Status
  | .crcInit | .crcUpd _ | .crcFin | .tbl _ | .qry _ | .frmClr => [.ok]
  | .frmPush _ | .frmSfx => [.ok, .overflow]
  | .frmVal => [.ok, .crcMismatch, .shortFrame, .overflow]
  | .frmDec => [.ok, .badValue, .shortFrame, .notValidated]
  | .rd sel => if 4 ≤ sel.toNat then [.ok, .noReading] else [.ok]

/-- Commands executed one after another, each from the state the one before left (20_memory.md rule R39). -/
def execAll : List Instr → State → Host.Outcome State Fault Refusal
  | [], s => .next s
  | i :: is, s =>
    match exec i s with
    | .next t => execAll is t
    | .fault f => .fault f
    | .refused r => .refused r

/-- The bytes that the `CRC.UPD` commands of a sequence consume, in order. -/
def updBytes : List Instr → List Byte
  | [] => []
  | .crcUpd b :: is => b :: updBytes is
  | _ :: is => updBytes is

/-- The commands that break a streaming checksum off (40_crc_engine.md rule R80 law 2, 70_reset_and_hazards.md rule
R150). -/
def breaksStream : Instr → Bool
  | .crcInit | .frmSfx | .frmVal => true
  | .crcUpd _ | .crcFin | .tbl _ | .qry _ | .frmClr | .frmPush _ | .frmDec | .rd _ => false

end Sys2Proof.Machine
end

