-- ==== Sys2Proof/Certificates/Slice0/Obligations.lean ====
section
/-! DEFINITION. The statements for the provers, each a proposition about the model that cites the rule of spec/ it comes
from (OBLIGATIONS.json lists them). -/

open Sys2Proof Sys2Proof.Machine

/-! ### Encoding -/

/-- Rules R55 to R57: decoding the word of any legal command gives the command back. -/
def Obligations.DecodeOfEncode : Prop :=
  ∀ i : Instr, i.wellFormed = true → decode (encode i) = .ok i

/-- Rules R55 to R57: a word the decoder accepts is the word of the command it gives, and the command is legal. -/
def Obligations.DecodeAcceptsOnlyEncodings : Prop :=
  ∀ (w : Cmd) (i : Instr), decode w = .ok i → i.wellFormed = true ∧ encode i = w

/-- Rule R58: which words are illegal, what an illegal word does, and how many words of each opcode, and in all, are legal. -/
def Obligations.IllegalWords : Prop :=
  (∀ w : Cmd, (∃ why, decode w = .error why) ↔ isIllegalWord w) ∧
  (∀ (s : State) (w : Cmd) (ws : List Cmd), s.cmds = w :: ws → isIllegalWord w →
    step s = .next { s with cmds := ws, out := some { st := .illegalCommand, dout := 0#32 } }) ∧
  isIllegalWord 0x000#12 ∧
  (List.range 16).map legalWithOpcode = [0, 1, 256, 1, 256, 8, 1, 256, 1, 1, 1, 11, 0, 0, 0, 0] ∧
  ((List.range 16).map legalWithOpcode).sum = 793

/-- Sample words of 96_test_vectors_codec.md V19, one or more for each family, decode as that file says. -/
def Obligations.SampleWordsDecode : Prop :=
  decode 0x100#12 = .ok .crcInit ∧ decode 0x2FF#12 = .ok (.crcUpd 0xFF#8) ∧ decode 0x300#12 = .ok .crcFin ∧
  decode 0x4FF#12 = .ok (.tbl 0xFF#8) ∧ decode 0x507#12 = .ok (.qry 7#8) ∧ decode 0x600#12 = .ok .frmClr ∧
  decode 0x7AB#12 = .ok (.frmPush 0xAB#8) ∧ decode 0x800#12 = .ok .frmSfx ∧ decode 0x900#12 = .ok .frmVal ∧
  decode 0xA00#12 = .ok .frmDec ∧ decode 0xB0A#12 = .ok (.rd 10#8) ∧
  decode 0x000#12 = .error .reservedOpcode ∧ decode 0x101#12 = .error .nonzeroArg ∧
  decode 0x508#12 = .error .queryIndex ∧ decode 0xB0B#12 = .error .selector ∧ decode 0xC00#12 = .error .reservedOpcode

/-- Rule R60: the line of any legal command assembles to that command, and its word is the command's word. -/
def Obligations.AssembleOfPrint : Prop :=
  ∀ i : Instr, i.wellFormed = true →
    assembleLine (printLine i) = .ok [i] ∧ assemble [printLine i] = .ok [encode i]

/-! ### The step -/

/-- Rules R4, R39 and R41: a step takes the next word off the port and, where it decodes, is exec of the command. -/
def Obligations.StepRunsDecoded : Prop :=
  ∀ (s : State) (w : Cmd) (ws : List Cmd) (i : Instr), s.cmds = w :: ws → decode w = .ok i →
    i.wellFormed = true ∧ step s = exec i { s with cmds := ws }

/-- The model's choice, log entry 2: with no word on the port a step changes nothing and there is no response. -/
def Obligations.StepWithoutCommand : Prop :=
  ∀ s : State, s.cmds = [] → step s = .next { s with out := none }

/-! ### The CRC engine -/

/-- Rule R72: the table in full, row `r` holding entries `8r` to `8r+7`. -/
def Obligations.TableListing : Prop :=
  (List.range 256).map (fun n => tableEntry (BitVec.ofNat 8 n)) =
    [0x0000#16, 0xC0C1#16, 0xC181#16, 0x0140#16, 0xC301#16, 0x03C0#16, 0x0280#16, 0xC241#16] ++
    [0xC601#16, 0x06C0#16, 0x0780#16, 0xC741#16, 0x0500#16, 0xC5C1#16, 0xC481#16, 0x0440#16] ++
    [0xCC01#16, 0x0CC0#16, 0x0D80#16, 0xCD41#16, 0x0F00#16, 0xCFC1#16, 0xCE81#16, 0x0E40#16] ++
    [0x0A00#16, 0xCAC1#16, 0xCB81#16, 0x0B40#16, 0xC901#16, 0x09C0#16, 0x0880#16, 0xC841#16] ++
    [0xD801#16, 0x18C0#16, 0x1980#16, 0xD941#16, 0x1B00#16, 0xDBC1#16, 0xDA81#16, 0x1A40#16] ++
    [0x1E00#16, 0xDEC1#16, 0xDF81#16, 0x1F40#16, 0xDD01#16, 0x1DC0#16, 0x1C80#16, 0xDC41#16] ++
    [0x1400#16, 0xD4C1#16, 0xD581#16, 0x1540#16, 0xD701#16, 0x17C0#16, 0x1680#16, 0xD641#16] ++
    [0xD201#16, 0x12C0#16, 0x1380#16, 0xD341#16, 0x1100#16, 0xD1C1#16, 0xD081#16, 0x1040#16] ++
    [0xF001#16, 0x30C0#16, 0x3180#16, 0xF141#16, 0x3300#16, 0xF3C1#16, 0xF281#16, 0x3240#16] ++
    [0x3600#16, 0xF6C1#16, 0xF781#16, 0x3740#16, 0xF501#16, 0x35C0#16, 0x3480#16, 0xF441#16] ++
    [0x3C00#16, 0xFCC1#16, 0xFD81#16, 0x3D40#16, 0xFF01#16, 0x3FC0#16, 0x3E80#16, 0xFE41#16] ++
    [0xFA01#16, 0x3AC0#16, 0x3B80#16, 0xFB41#16, 0x3900#16, 0xF9C1#16, 0xF881#16, 0x3840#16] ++
    [0x2800#16, 0xE8C1#16, 0xE981#16, 0x2940#16, 0xEB01#16, 0x2BC0#16, 0x2A80#16, 0xEA41#16] ++
    [0xEE01#16, 0x2EC0#16, 0x2F80#16, 0xEF41#16, 0x2D00#16, 0xEDC1#16, 0xEC81#16, 0x2C40#16] ++
    [0xE401#16, 0x24C0#16, 0x2580#16, 0xE541#16, 0x2700#16, 0xE7C1#16, 0xE681#16, 0x2640#16] ++
    [0x2200#16, 0xE2C1#16, 0xE381#16, 0x2340#16, 0xE101#16, 0x21C0#16, 0x2080#16, 0xE041#16] ++
    [0xA001#16, 0x60C0#16, 0x6180#16, 0xA141#16, 0x6300#16, 0xA3C1#16, 0xA281#16, 0x6240#16] ++
    [0x6600#16, 0xA6C1#16, 0xA781#16, 0x6740#16, 0xA501#16, 0x65C0#16, 0x6480#16, 0xA441#16] ++
    [0x6C00#16, 0xACC1#16, 0xAD81#16, 0x6D40#16, 0xAF01#16, 0x6FC0#16, 0x6E80#16, 0xAE41#16] ++
    [0xAA01#16, 0x6AC0#16, 0x6B80#16, 0xAB41#16, 0x6900#16, 0xA9C1#16, 0xA881#16, 0x6840#16] ++
    [0x7800#16, 0xB8C1#16, 0xB981#16, 0x7940#16, 0xBB01#16, 0x7BC0#16, 0x7A80#16, 0xBA41#16] ++
    [0xBE01#16, 0x7EC0#16, 0x7F80#16, 0xBF41#16, 0x7D00#16, 0xBDC1#16, 0xBC81#16, 0x7C40#16] ++
    [0xB401#16, 0x74C0#16, 0x7580#16, 0xB541#16, 0x7700#16, 0xB7C1#16, 0xB681#16, 0x7640#16] ++
    [0x7200#16, 0xB2C1#16, 0xB381#16, 0x7340#16, 0xB101#16, 0x71C0#16, 0x7080#16, 0xB041#16] ++
    [0x5000#16, 0x90C1#16, 0x9181#16, 0x5140#16, 0x9301#16, 0x53C0#16, 0x5280#16, 0x9241#16] ++
    [0x9601#16, 0x56C0#16, 0x5780#16, 0x9741#16, 0x5500#16, 0x95C1#16, 0x9481#16, 0x5440#16] ++
    [0x9C01#16, 0x5CC0#16, 0x5D80#16, 0x9D41#16, 0x5F00#16, 0x9FC1#16, 0x9E81#16, 0x5E40#16] ++
    [0x5A00#16, 0x9AC1#16, 0x9B81#16, 0x5B40#16, 0x9901#16, 0x59C0#16, 0x5880#16, 0x9841#16] ++
    [0x8801#16, 0x48C0#16, 0x4980#16, 0x8941#16, 0x4B00#16, 0x8BC1#16, 0x8A81#16, 0x4A40#16] ++
    [0x4E00#16, 0x8EC1#16, 0x8F81#16, 0x4F40#16, 0x8D01#16, 0x4DC0#16, 0x4C80#16, 0x8C41#16] ++
    [0x4400#16, 0x84C1#16, 0x8581#16, 0x4540#16, 0x8701#16, 0x47C0#16, 0x4680#16, 0x8641#16] ++
    [0x8201#16, 0x42C0#16, 0x4380#16, 0x8341#16, 0x4100#16, 0x81C1#16, 0x8081#16, 0x4040#16]

/-- Rule R71: the equivalent construction, the spot values, the entries pairwise different, linearity over XOR and the
eight generating entries. -/
def Obligations.TableLaws : Prop :=
  (∀ n : Byte, tableEntry n =
    (fun r : Half => if r.getLsbD 0 then (r >>> 1) ^^^ 0xA001#16 else r >>> 1)^[8] (n.setWidth 16)) ∧
  tableEntry 0x00#8 = 0x0000#16 ∧ tableEntry 0xFF#8 = 0x4040#16 ∧
  (∀ i j : Byte, tableEntry i = tableEntry j → i = j) ∧
  (∀ i j : Byte, tableEntry (i ^^^ j) = tableEntry i ^^^ tableEntry j) ∧
  tableEntry 0x01#8 = 0xC0C1#16 ∧ tableEntry 0x02#8 = 0xC181#16 ∧ tableEntry 0x04#8 = 0xC301#16 ∧
  tableEntry 0x08#8 = 0xC601#16 ∧ tableEntry 0x10#8 = 0xCC01#16 ∧ tableEntry 0x20#8 = 0xD801#16 ∧
  tableEntry 0x40#8 = 0xF001#16 ∧ tableEntry 0x80#8 = 0xA001#16

/-- Rule R76: `CRC.INIT`. -/
def Obligations.CrcInitResult : Prop :=
  encode .crcInit = 0x100#12 ∧ (∀ a : Byte, a ≠ 0#8 → ∃ why, decode (0x1#4 ++ a) = .error why) ∧
  ∀ s : State, exec .crcInit s =
    .next { s with crc := 0xFFFF#16, out := some { st := .ok, dout := 0x0000FFFF#32 } }

/-- Rules R73 and R77: `CRC.UPD b`, with the update written out, whole and byte by byte. -/
def Obligations.CrcUpdResult : Prop :=
  ∀ (b : Byte) (s : State),
    let entry : Half := tableEntry ((s.crc ^^^ b.setWidth 16).extractLsb' 0 8)
    let c : Half := (s.crc >>> 8) ^^^ entry
    (encode (.crcUpd b)).toNat = 0x200 + b.toNat ∧
    c.extractLsb' 8 8 = entry.extractLsb' 8 8 ∧
    c.extractLsb' 0 8 = s.crc.extractLsb' 8 8 ^^^ entry.extractLsb' 0 8 ∧
    exec (.crcUpd b) s = .next { s with crc := c, out := some { st := .ok, dout := c.setWidth 32 } }

/-- Rule R78: `CRC.FIN`, with the byte swap written out. -/
def Obligations.CrcFinResult : Prop :=
  encode .crcFin = 0x300#12 ∧ (∀ a : Byte, a ≠ 0#8 → ∃ why, decode (0x3#4 ++ a) = .error why) ∧
  ∀ s : State,
    let c : Half := s.crc.extractLsb' 0 8 ++ s.crc.extractLsb' 8 8
    exec .crcFin s = .next { s with crcOut := c, out := some { st := .ok, dout := c.setWidth 32 } }

/-- Rule R79: `TBL i`. -/
def Obligations.TblResult : Prop :=
  ∀ (i : Byte) (s : State), (encode (.tbl i)).toNat = 0x400 + i.toNat ∧
    exec (.tbl i) s = .next { s with out := some { st := .ok, dout := (tableEntry i).setWidth 32 } }

/-- Rule R80, laws 2 to 4 of the checksum: continuation, zero residue, and the checksum of no bytes. -/
def Obligations.ChecksumLaws : Prop :=
  (∀ x y : List Byte, crcRaw (x ++ y) = y.foldl crcStep (crcRaw x)) ∧
  (∀ x : List Byte, crcRaw (x ++ [(crcRaw x).extractLsb' 0 8, (crcRaw x).extractLsb' 8 8]) = 0#16) ∧
  crc16 [] = 0xFFFF#16

/-- Rule R80, law 1: the commands of `CRC.MSG bytes`, presented in any state, end with `CRC = crc_raw(bytes)`, `CRCOUT =
crc16(bytes)` and the response `(OK, crc16(bytes))`, everything else as it was. -/
def Obligations.StreamingChecksum : Prop :=
  ∀ (s : State) (bytes : List Byte) (ws : List Cmd), s.cmds = wordsOf (.crcMsg bytes) ++ ws →
    Host.Core.run Sys2Proof.core (bytes.length + 2) s =
      .next { s with crc := crcRaw bytes, crcOut := crc16 bytes, cmds := ws,
                     out := some { st := .ok, dout := (crc16 bytes).setWidth 32 } }

/-- Rules R80 (law 2) and R146: any sequence of commands without `CRC.INIT`, `FRM.SFX` and `FRM.VAL` leaves in `CRC` the
checksum continued over the bytes of its `CRC.UPD` commands. -/
def Obligations.InterleavedStreaming : Prop :=
  ∀ (is : List Instr) (s t : State), (∀ i ∈ is, breaksStream i = false) → execAll is s = .next t →
    t.crc = (updBytes is).foldl crcStep s.crc

/-! ### The frame buffer and the query ROM -/

/-- Rule R85: `FRM.CLR`. -/
def Obligations.FrmClrResult : Prop :=
  encode .frmClr = 0x600#12 ∧ (∀ a : Byte, a ≠ 0#8 → ∃ why, decode (0x6#4 ++ a) = .error why) ∧
  ∀ s : State, exec .frmClr s =
    .next { s with len := 0, crcOk := false, rValid := false, ovf := false,
                   out := some { st := .ok, dout := 0#32 } }

/-- Rule R86: `FRM.PUSH b`, in a full buffer and in one with room; the byte stored is the one at index `LEN`, and the
response's data is the length, as a number, wherever 32 bits hold it (log entry 13 says what stands there otherwise). -/
def Obligations.FrmPushResult : Prop :=
  ∀ (b : Byte) (s : State), (encode (.frmPush b)).toNat = 0x700 + b.toNat ∧
    (s.len = s.frameCap → exec (.frmPush b) s =
      .next { s with crcOk := false, rValid := false, ovf := true,
                     out := some { st := .overflow, dout := lengthWord s.len } }) ∧
    (s.len < s.frameCap → ∃ t, exec (.frmPush b) s = .next t ∧
      t = { s with crcOk := false, rValid := false, buf := t.buf, len := s.len + 1,
                   out := some { st := .ok, dout := lengthWord (s.len + 1) } } ∧
      t.readByte s.len = .ok b ∧ ∀ a, a ≠ s.len → t.readByte a = s.readByte a) ∧
    ∀ n, n < 2 ^ 32 → (lengthWord n).toNat = n

/-- Rules R87, R53 and R32: `FRM.SFX`, without room and with room; the two bytes stored are those at `LEN` and
`LEN + 1`. -/
def Obligations.FrmSfxResult : Prop :=
  encode .frmSfx = 0x800#12 ∧ (∀ a : Byte, a ≠ 0#8 → ∃ why, decode (0x8#4 ++ a) = .error why) ∧
  ∀ s : State,
    (s.ovf = true ∨ s.len + 2 > s.frameCap → exec .frmSfx s =
      .next { s with crcOk := false, rValid := false, ovf := true,
                     out := some { st := .overflow, dout := 0#32 } }) ∧
    (∀ F, s.ovf = false → s.len + 2 ≤ s.frameCap → s.frame = .ok F → ∃ t, exec .frmSfx s = .next t ∧
      t = { s with crcOk := false, rValid := false, crc := crcRaw F, crcOut := crc16 F, buf := t.buf,
                   len := s.len + 2, out := some { st := .ok, dout := (crc16 F).setWidth 32 } } ∧
      t.readByte s.len = .ok ((crc16 F).extractLsb' 8 8) ∧
      t.readByte (s.len + 1) = .ok ((crc16 F).extractLsb' 0 8) ∧
      ∀ a, a ≠ s.len → a ≠ s.len + 1 → t.readByte a = s.readByte a)

/-- Rule R88: the round trip. From any state that keeps the invariant, with `OVF = 0` and room for two bytes,
`FRM.SFX` and then `FRM.VAL` both respond `OK` with equal data, and `CRCOK = 1`. -/
def Obligations.SealThenValidate : Prop :=
  ∀ s : State, s.Inv → s.ovf = false → s.len + 2 ≤ s.frameCap →
    ∃ t u d, exec .frmSfx s = .next t ∧ exec .frmVal t = .next u ∧
      t.out = some { st := .ok, dout := d } ∧ u.out = some { st := .ok, dout := d } ∧ u.crcOk = true

/-- Rules R87 and R80 (law 3): sealing a sealed frame appends the bytes `00 00`. -/
def Obligations.SecondSealAppendsZeros : Prop :=
  ∀ s : State, s.Inv → s.ovf = false → s.len + 4 ≤ s.frameCap →
    ∃ t u, exec .frmSfx s = .next t ∧ exec .frmSfx t = .next u ∧
      u.out = some { st := .ok, dout := 0#32 } ∧ u.crc = 0#16 ∧
      u.readByte (s.len + 2) = .ok 0x00#8 ∧ u.readByte (s.len + 3) = .ok 0x00#8

/-- Rule R89: `QRY i` for a legal index, and what a step does on the illegal words above it. -/
def Obligations.QryResult : Prop :=
  ∀ (i : Byte) (s : State), (encode (.qry i)).toNat = 0x500 + i.toNat ∧
    (∀ h : i.toNat < 8, exec (.qry i) s =
      .next { s with out := some { st := .ok,
                                   dout := ([0x01#32, 0x04#32, 0x00#32, 0x00#32, 0x00#32, 0x0A#32, 0x70#32, 0x0D#32])[i.toNat] } }) ∧
    (7 < i.toNat → (∃ why, decode (0x5#4 ++ i) = .error why) ∧
      ∀ ws, step { s with cmds := (0x5#4 ++ i) :: ws } =
        .next { s with cmds := ws, out := some { st := .illegalCommand, dout := 0#32 } })

/-- Rules R50, R53 and R90: the query constant carries its own checksum and validates. -/
def Obligations.QueryConstant : Prop :=
  queryBytes = [0x01#8, 0x04#8, 0x00#8, 0x00#8, 0x00#8, 0x0A#8, 0x70#8, 0x0D#8] ∧
  crc16 (queryBytes.take 6) = 0x700D#16 ∧ trailerOk queryBytes = true

/-- Rules R61, R85 and R86: the commands of `FRM.LOAD bytes`, for at most `FRAME_CAP` bytes, leave exactly these bytes as
the frame and clear the flags but `DIVZ`. -/
def Obligations.LoadedFrame : Prop :=
  ∀ (s : State) (bytes : List Byte) (ws : List Cmd), bytes.length ≤ s.frameCap →
    s.cmds = wordsOf (.frmLoad bytes) ++ ws →
    ∃ t, Host.Core.run Sys2Proof.core (bytes.length + 1) s = .next t ∧
      t.frame = .ok bytes ∧
      t = { s with len := bytes.length, buf := t.buf, crcOk := false, rValid := false, ovf := false,
                   cmds := ws, out := some { st := .ok, dout := lengthWord bytes.length } }

/-- Rules R61, R96 and R98: the commands of `FRM.CHECK bytes`, for 2 to `FRAME_CAP` bytes, validate exactly these bytes:
`CRCOK` and the status say whether the trailer matches. -/
def Obligations.CheckedFrame : Prop :=
  ∀ (s : State) (bytes : List Byte) (ws : List Cmd), 2 ≤ bytes.length → bytes.length ≤ s.frameCap →
    s.cmds = wordsOf (.frmCheck bytes) ++ ws →
    ∃ t, Host.Core.run Sys2Proof.core (bytes.length + 2) s = .next t ∧
      t.frame = .ok bytes ∧ t.crcOk = trailerOk bytes ∧ t.rValid = false ∧ t.cmds = ws ∧
      t.out = some { st := if trailerOk bytes then .ok else .crcMismatch,
                     dout := (crc16 (bytes.take (bytes.length - 2))).setWidth 32 }

/-! ### The frame codec -/

/-- Rules R96 and R98: `FRM.VAL` on a truncated frame, on one too short for a trailer, and on any other frame `F`, with
the comparison of the trailer written out; while a Reading is readable it answers `OK` again. -/
def Obligations.FrmValResult : Prop :=
  encode .frmVal = 0x900#12 ∧ (∀ a : Byte, a ≠ 0#8 → ∃ why, decode (0x9#4 ++ a) = .error why) ∧
  ∀ s : State,
    (s.ovf = true → exec .frmVal s =
      .next { s with crcOk := false, out := some { st := .overflow, dout := 0#32 } }) ∧
    (s.ovf = false → s.len < 2 → exec .frmVal s =
      .next { s with crcOk := false, out := some { st := .shortFrame, dout := 0#32 } }) ∧
    (∀ F, s.ovf = false → 2 ≤ s.len → s.frame = .ok F →
      let c := crcRaw (F.take (s.len - 2))
      exec .frmVal s = .next { s with
        crc := c, crcOut := swap16 c, crcOk := trailerOk F,
        out := some { st := if trailerOk F then .ok else .crcMismatch, dout := (swap16 c).setWidth 32 } } ∧
      (trailerOk F = true ↔ (swap16 c).extractLsb' 8 8 = F.getD (s.len - 2) 0#8 ∧
        (swap16 c).extractLsb' 0 8 = F.getD (s.len - 1) 0#8)) ∧
    (s.Inv → s.rValid = true → ∃ t, exec .frmVal s = .next t ∧ t.respondedOk ∧ t.crcOk = true)

/-- Rules R80 (law 3) and R96 together with R71: a frame whose trailer matches no longer matches after any change of one
of its bytes, payload or trailer. The spec claims no more than that corruption is detected with high probability
(93_implementation_defined.md G4 leaves the stronger property to a proof from rule R80). -/
def Obligations.ChangedByteIsDetected : Prop :=
  ∀ (F : List Byte) (k : Nat) (b : Byte), 2 ≤ F.length → k < F.length → F.getD k 0#8 ≠ b → trailerOk F = true →
    trailerOk (F.set k b) = false

/-- Rules R100 to R106: `FRM.DEC` on a frame that is not validated, on one too short, and on any other frame `F`: the
fields at their offsets and the judgement are written out. -/
def Obligations.FrmDecResult : Prop :=
  encode .frmDec = 0xA00#12 ∧ (∀ a : Byte, a ≠ 0#8 → ∃ why, decode (0xA#4 ++ a) = .error why) ∧
  ∀ s : State,
    (s.crcOk = false → exec .frmDec s =
      .next { s with divZ := false, rValid := false, out := some { st := .notValidated, dout := 0#32 } }) ∧
    (s.crcOk = true → s.len < 25 → exec .frmDec s =
      .next { s with divZ := false, rValid := false, out := some { st := .shortFrame, dout := 0#32 } }) ∧
    (∀ F, s.crcOk = true → 25 ≤ s.len → s.frame = .ok F →
      let group := fun a => F.getD a 0#8 ++ F.getD (a + 1) 0#8
      let pair := fun a => if s.swapEn then group (a + 2) ++ group a else group a ++ group (a + 2)
      let r : Results := { volt := group 3, curr := pair 5, powr := pair 9, enrg := pair 13, freq := group 17,
                           pfac := group 19, alrt := group 21 }
      exec .frmDec s =
        if r.powr = 0#32 ∧ s.zeroPowerGuard = false then
          .next { s with divZ := true, rValid := false, out := some { st := .badValue, dout := 0#32 } }
        else if r.powr ≠ 0#32 ∧
            2 * (1000 * (r.powr.toNat : Int) - (r.curr.toNat : Int) * (r.volt.toNat : Int)).natAbs > 1000 * r.powr.toNat then
          .next { s with divZ := false, rValid := false, out := some { st := .badValue, dout := 0#32 } }
        else
          .next { s with divZ := false, rValid := true, res := r, out := some { st := .ok, dout := 0#32 } })

/-- Rule R105: for a raw power other than 0 the gate rejects exactly when the source's `abs(delta)` is above 0.5, that is
when `i*v` lies outside `500*p .. 1500*p`; the products fit the widths the rule gives. -/
def Obligations.GateIsExact : Prop :=
  ∀ r : Results, r.powr ≠ 0#32 →
    r.delta = (1000 * r.powr.toNat - r.curr.toNat * r.volt.toNat) / (1000 * r.powr.toNat) ∧
    (gateRejects r.volt r.curr r.powr = true ↔ |r.delta| > 1 / 2) ∧
    (gateRejects r.volt r.curr r.powr = true ↔
      2 * |1000 * (r.powr.toNat : Int) - r.curr.toNat * r.volt.toNat| > 1000 * r.powr.toNat) ∧
    (gateRejects r.volt r.curr r.powr = true ↔
      r.curr.toNat * r.volt.toNat < 500 * r.powr.toNat ∨ r.curr.toNat * r.volt.toNat > 1500 * r.powr.toNat) ∧
    r.curr.toNat * r.volt.toNat < 2 ^ 48 ∧ 1000 * r.powr.toNat < 2 ^ 42

/-- Rules R112 and R57: `RD s` for every selector, with the flags word of rule R13 written out and a length as the number
it is wherever 32 bits hold it (log entry 13), and what a step does on the illegal words above; where the invariant holds
a readable result register is what the decode of the frame now in the buffer wrote. -/
def Obligations.RdResult : Prop :=
  ∀ s : State,
    let responds (st : Status) (d : Word) : Host.Outcome State Fault Refusal :=
      .next { s with out := some { st := st, dout := d } }
    (∀ sel : Byte, (encode (.rd sel)).toNat = 0xB00 + sel.toNat) ∧
    exec (.rd 0#8) s = responds .ok (s.crc.setWidth 32) ∧
    exec (.rd 1#8) s = responds .ok (s.crcOut.setWidth 32) ∧
    exec (.rd 2#8) s = responds .ok (lengthWord s.len) ∧ (s.len < 2 ^ 32 → (lengthWord s.len).toNat = s.len) ∧
    exec (.rd 3#8) s = responds .ok
      (BitVec.ofNat 32 (s.crcOk.toNat + 2 * s.rValid.toNat + 4 * s.ovf.toNat + 8 * s.divZ.toNat)) ∧
    (s.rValid = false → ∀ sel : Byte, 4 ≤ sel.toNat → sel.toNat ≤ 10 →
      exec (.rd sel) s = responds .noReading 0#32) ∧
    (s.rValid = true →
      exec (.rd 4#8) s = responds .ok (s.res.volt.setWidth 32) ∧
      exec (.rd 5#8) s = responds .ok s.res.curr ∧
      exec (.rd 6#8) s = responds .ok s.res.powr ∧
      exec (.rd 7#8) s = responds .ok s.res.enrg ∧
      exec (.rd 8#8) s = responds .ok (s.res.freq.setWidth 32) ∧
      exec (.rd 9#8) s = responds .ok (s.res.pfac.setWidth 32) ∧
      exec (.rd 10#8) s = responds .ok (s.res.alrt.setWidth 32)) ∧
    (∀ sel : Byte, 10 < sel.toNat → (∃ why, decode (0xB#4 ++ sel) = .error why) ∧
      ∀ ws, step { s with cmds := (0xB#4 ++ sel) :: ws } =
        .next { s with cmds := ws, out := some { st := .illegalCommand, dout := 0#32 } }) ∧
    (s.Inv → s.rValid = true → ∃ F t, s.frame = .ok F ∧ exec .frmDec s = .next t ∧ t.respondedOk ∧ t.res = s.res)

/-- Rules R107 and R110: `FRM.DEC` depends on `CRCOK`, `LEN`, the bytes 3 to 22 and the two straps alone: the header, the
bytes from 23 on and everything else do not matter. -/
def Obligations.DecodeDependsOnFieldsOnly : Prop :=
  ∀ s t s' : State, s.crcOk = t.crcOk → s.len = t.len → s.swapEn = t.swapEn → s.zeroPowerGuard = t.zeroPowerGuard →
    (∀ k, 3 ≤ k → k ≤ 22 → s.readByte k = t.readByte k) → exec .frmDec s = .next s' →
    ∃ t', exec .frmDec t = .next t' ∧ t'.out = s'.out ∧ t'.rValid = s'.rValid ∧ t'.divZ = s'.divZ ∧
      (s'.rValid = true → t'.res = s'.res)

/-- Rules R35 and R110: `FRM.VAL` and `FRM.DEC`, repeated at once, give the same response and the same state. -/
def Obligations.ValidateAndDecodeRepeat : Prop :=
  (∀ s t : State, exec .frmVal s = .next t → exec .frmVal t = .next t) ∧
  (∀ s t : State, exec .frmDec s = .next t → exec .frmDec t = .next t)

/-- Rules R13, R105, R106 and R108: while `RVALID = 1` the Reading obeys the power law within one half of the power, as
exact rationals, or the power is 0 and the guard strap is 1. -/
def Obligations.ReadableReadingIsPlausible : Prop :=
  ∀ s : State, s.Inv → s.rValid = true →
    (s.res.power = 0 ∧ s.zeroPowerGuard = true) ∨
    (0 < s.res.power ∧ |s.res.power - s.res.current * s.res.voltage| ≤ s.res.power / 2)

/-! ### Reset -/

/-- Rules R19 and R140: the values the spec gives for reset, for every wiring of the straps, and the default straps. -/
def Obligations.ResetValues : Prop :=
  (∀ (sw zp : Bool) (cap : Nat),
    let s := State.resetWith sw zp cap
    s.crc = 0xFFFF#16 ∧ s.crcOut = 0xFFFF#16 ∧ s.len = 0 ∧ s.crcOk = false ∧ s.rValid = false ∧ s.ovf = false ∧
    s.divZ = false ∧ s.swapEn = sw ∧ s.zeroPowerGuard = zp ∧ s.frameCap = cap) ∧
  State.reset = State.resetWith true false 256

/-- The model's own choices for reset, log entries 1, 4 and 5: every bit of the result registers is one, no byte of the
buffer holds a value, and nothing is on the ports. -/
def Obligations.ResetModelChoices : Prop :=
  State.reset.res.volt = BitVec.allOnes 16 ∧ State.reset.res.curr = BitVec.allOnes 32 ∧
  State.reset.res.powr = BitVec.allOnes 32 ∧ State.reset.res.enrg = BitVec.allOnes 32 ∧
  State.reset.res.freq = BitVec.allOnes 16 ∧ State.reset.res.pfac = BitVec.allOnes 16 ∧
  State.reset.res.alrt = BitVec.allOnes 16 ∧
  State.reset.buf = [] ∧ State.reset.cmds = [] ∧ State.reset.out = none

/-- Rule R142: the first command after reset may be any; what the named ones do, for every wiring of the straps. -/
def Obligations.FirstCommandAfterReset : Prop :=
  ∀ (sw zp : Bool) (cap : Nat), 25 ≤ cap →
    let s := State.resetWith sw zp cap
    (∀ b : Byte, ∃ t, exec (.crcUpd b) s = .next t ∧ t.crc = crcRaw [b]) ∧
    (∀ b : Byte, ∃ t, exec (.frmPush b) s = .next t ∧ t.frame = .ok [b] ∧ t.out = some { st := .ok, dout := 1#32 }) ∧
    exec .frmVal s = .next { s with out := some { st := .shortFrame, dout := 0#32 } } ∧
    exec .frmDec s = .next { s with out := some { st := .notValidated, dout := 0#32 } } ∧
    exec (.rd 4#8) s = .next { s with out := some { st := .noReading, dout := 0#32 } } ∧
    ∀ i : Instr, ∃ t r, exec i s = .next t ∧ t.out = some r

/-! ### The whole machine -/

/-- The invariant holds after reset, for every capacity of at least 25 (rules R13, R15 and R19). -/
def Obligations.InvariantAtReset : Prop :=
  ∀ (sw zp : Bool) (cap : Nat), 25 ≤ cap → (State.resetWith sw zp cap).Inv

/-- Every step keeps the invariant (rules R13 and R15): `RVALID = 1` implies `CRCOK = 1`, `CRCOK = 1` implies `OVF = 0`,
`LEN >= 2` and a matching trailer, a readable Reading is the decoding of the frame now in the buffer, and the buffer's
bounds and canonical form stay. -/
def Obligations.StepKeepsInvariant : Prop :=
  ∀ s t : State, s.Inv → step s = .next t → t.Inv

/-- Rules R36, R126 and R150: where the invariant holds no step stops; every word is answered by one response. -/
def Obligations.EveryWordIsAnswered : Prop :=
  (∀ s : State, s.Inv → s.cmds ≠ [] → ∃ t r, step s = .next t ∧ t.out = some r) ∧
  (∀ (i : Instr) (s : State), s.Inv → ∃ t r, exec i s = .next t ∧ t.out = some r)

/-- Rules R11, R15, R19 and R109: the result registers while `RVALID = 0` and the bytes at or beyond `LEN` never reach
the host: from two states that differ in these alone, a step has the same response and again leaves no difference but
in these. -/
def Obligations.HiddenStateIsUnobservable : Prop :=
  ∀ s t : State, s.SameVisible t → sameOutcome (step s) (step t)

/-- Rule R13: which commands set, clear and leave each flag. -/
def Obligations.FlagWriters : Prop :=
  ∀ (i : Instr) (s t : State), exec i s = .next t →
    (s.crcOk = false → t.crcOk = true → i = .frmVal ∧ t.respondedOk) ∧
    (s.rValid = false → t.rValid = true → i = .frmDec ∧ t.respondedOk) ∧
    (s.ovf = false → t.ovf = true → ((∃ b, i = .frmPush b ∧ s.len = s.frameCap) ∨
      (i = .frmSfx ∧ s.len + 2 > s.frameCap))) ∧
    (s.divZ = false → t.divZ = true → i = .frmDec ∧ s.zeroPowerGuard = false) ∧
    (i = .frmClr ∨ (∃ b, i = .frmPush b) ∨ i = .frmSfx → t.crcOk = false ∧ t.rValid = false) ∧
    (i = .frmVal → (t.crcOk = true ↔ t.respondedOk)) ∧
    (i = .frmDec → (t.rValid = true ↔ t.respondedOk)) ∧
    (s.crcOk = true → t.crcOk = false → i = .frmClr ∨ (∃ b, i = .frmPush b) ∨ i = .frmSfx ∨ i = .frmVal) ∧
    (s.rValid = true → t.rValid = false → i = .frmClr ∨ (∃ b, i = .frmPush b) ∨ i = .frmSfx ∨ i = .frmDec) ∧
    (s.ovf = true → t.ovf = false → i = .frmClr) ∧
    (s.divZ = true → t.divZ = false → i = .frmDec)

/-- The overview of 10_state.md section 1, with rules R11, R14, R35 and R146: a command leaves every register, byte and
strap it does not write. -/
def Obligations.StateWriters : Prop :=
  ∀ (i : Instr) (s t : State), exec i s = .next t →
    (writesCrc i = false → t.crc = s.crc) ∧
    (writesCrcOut i = false → t.crcOut = s.crcOut) ∧
    (writesLen i = false → t.len = s.len) ∧
    (writesBuf i = false → ∀ a, t.readByte a = s.readByte a) ∧
    (∀ a, a < s.len → t.readByte a = s.readByte a) ∧
    (¬ (i = .frmDec ∧ t.respondedOk) → t.res = s.res) ∧
    (onlyResponds i = true → t = { s with out := t.out }) ∧
    t.swapEn = s.swapEn ∧ t.zeroPowerGuard = s.zeroPowerGuard ∧ t.frameCap = s.frameCap ∧ t.cmds = s.cmds

/-- Rule R120: the codes of the eight statuses, none above 7, and which commands produce which. -/
def Obligations.StatusCodes : Prop :=
  (Status.ok.code = 0#4 ∧ Status.crcMismatch.code = 1#4 ∧ Status.badValue.code = 2#4 ∧ Status.shortFrame.code = 3#4 ∧
    Status.notValidated.code = 4#4 ∧ Status.overflow.code = 5#4 ∧ Status.noReading.code = 6#4 ∧
    Status.illegalCommand.code = 7#4) ∧
  (∀ st : Status, st.code.toNat < 8) ∧
  (∀ (i : Instr) (s t : State) (r : Response), i.wellFormed = true → exec i s = .next t → t.out = some r →
    r.st ∈ mayRespond i)

/-- Log entries 5 and 6, the model's stops: a byte inside the buffer that nothing has written gives no value, and an
index at or beyond `FRAME_CAP` does not exist; every other access is answered. (EveryWordIsAnswered says that no state
that keeps the invariant reaches a stop.) -/
def Obligations.BufferAccessStops : Prop :=
  ∀ (s : State) (a : Nat) (b : Byte),
    (s.frameCap ≤ a → s.readByte a = .error (.bufOutOfRange a) ∧ s.writeByte a b = .error (.bufOutOfRange a)) ∧
    (a < s.frameCap → (∃ t, s.writeByte a b = .ok t ∧ t.readByte a = .ok b) ∧
      ((∃ c ∈ s.buf, c.1 = a) → ∃ d, s.readByte a = .ok d) ∧
      ((∀ c ∈ s.buf, c.1 ≠ a) → s.readByte a = .error (.bufUnwritten a)))

/-- Log entry 8, the model's reading of rules R58 and R125: a command that is not well-formed (`QRY` above 7, `RD` above
10), which no word decodes to, answers as a step does on the illegal word it encodes. -/
def Obligations.IllFormedCommandAnswersAsItsWord : Prop :=
  ∀ (i : Instr) (s : State) (ws : List Cmd), i.wellFormed = false →
    exec i { s with cmds := ws } = step { s with cmds := encode i :: ws } ∧
    exec i { s with cmds := ws } = .next { s with cmds := ws, out := some { st := .illegalCommand, dout := 0#32 } }

/-- Rules R5 and R15 (log entry 3): for every capacity of 25 or more the buffer holds exactly that many bytes, and where
the capacity fits in 9 bits `LEN` does, in every state that keeps the invariant and in the state after its next step. -/
def Obligations.CapacityAndLengthWidth : Prop :=
  (∀ (sw zp : Bool) (cap : Nat) (bytes : List Byte) (b : Byte), 25 ≤ cap → bytes.length = cap →
    ∃ t, Host.Core.run Sys2Proof.core (cap + 2)
        { State.resetWith sw zp cap with cmds := wordsOf (.frmLoad bytes) ++ [encode (.frmPush b)] } = .next t ∧
      t.frame = .ok bytes ∧ t.len = cap ∧ t.ovf = true ∧
      t.out = some { st := .overflow, dout := lengthWord cap }) ∧
  (∀ s t : State, s.Inv → s.frameCap < 2 ^ 9 → step s = .next t → s.len < 2 ^ 9 ∧ t.len < 2 ^ 9)
end

