-- ==== Sys2Proof/Laws/Crc.lean ====
section
/-! SUPPORT. The bytes of a 16-bit value, the byte swap, and the checksum of appended bytes. -/

namespace Sys2Proof.Machine

/-- The swap puts the low byte high. -/
theorem highByte_swap16 (c : Half) : highByte (swap16 c) = lowByte c := by
  ext i hi
  simp only [highByte, swap16, lowByte, BitVec.getElem_extractLsb', BitVec.getLsbD_append, BitVec.getLsbD_extractLsb']
  simp [hi]

/-- The swap puts the high byte low. -/
theorem lowByte_swap16 (c : Half) : lowByte (swap16 c) = highByte c := by
  ext i hi
  simp only [highByte, swap16, lowByte, BitVec.getElem_extractLsb', BitVec.getLsbD_append, BitVec.getLsbD_extractLsb']
  simp [hi]

/-- The checksum of no bytes is the start value. -/
@[simp] theorem crcRaw_nil : crcRaw [] = Config.crcInit := rfl

/-- One more byte is one more update (rule R74). -/
theorem crcRaw_concat (bytes : List Byte) (b : Byte) : crcRaw (bytes ++ [b]) = crcStep (crcRaw bytes) b := by
  simp [crcRaw]

/-- Entry 0 of the table is 0 (rule R71). -/
theorem tableEntry_zero : tableEntry 0#8 = 0#16 := by decide

/-- A byte equal to the low byte of the checksum shifts it right by 8 (rule R80 law 3). -/
theorem crcStep_lowByte (c : Half) : crcStep c (lowByte c) = c >>> 8 := by
  have h : lowByte (c ^^^ (lowByte c).setWidth 16) = 0#8 := by
    ext i hi
    simp only [lowByte, BitVec.getElem_extractLsb', BitVec.getLsbD_xor, BitVec.getLsbD_setWidth,
      BitVec.getLsbD_extractLsb']
    simp [hi, show i < 16 by omega]
  rw [crcStep, h, tableEntry_zero, BitVec.xor_zero]

end Sys2Proof.Machine
end

