-- ==== Sys2Proof/Laws/State.lean ====
section
/-! SUPPORT. What each update of State leaves in each field, one lemma per field per update, true by definition, and
the reads of the buffer that no update of another field touches. -/

namespace Sys2Proof.Machine

variable (s : State)

/-! ### setCrcOk -/

@[simp] theorem State.setCrcOk_crc (b : Bool) : (s.setCrcOk b).crc = s.crc := rfl
@[simp] theorem State.setCrcOk_crcOut (b : Bool) : (s.setCrcOk b).crcOut = s.crcOut := rfl
@[simp] theorem State.setCrcOk_len (b : Bool) : (s.setCrcOk b).len = s.len := rfl
@[simp] theorem State.setCrcOk_crcOk (b : Bool) : (s.setCrcOk b).crcOk = b := rfl
@[simp] theorem State.setCrcOk_rValid (b : Bool) : (s.setCrcOk b).rValid = s.rValid := rfl
@[simp] theorem State.setCrcOk_ovf (b : Bool) : (s.setCrcOk b).ovf = s.ovf := rfl
@[simp] theorem State.setCrcOk_divZ (b : Bool) : (s.setCrcOk b).divZ = s.divZ := rfl
@[simp] theorem State.setCrcOk_res (b : Bool) : (s.setCrcOk b).res = s.res := rfl
@[simp] theorem State.setCrcOk_buf (b : Bool) : (s.setCrcOk b).buf = s.buf := rfl
@[simp] theorem State.setCrcOk_swapEn (b : Bool) : (s.setCrcOk b).swapEn = s.swapEn := rfl
@[simp] theorem State.setCrcOk_zeroPowerGuard (b : Bool) : (s.setCrcOk b).zeroPowerGuard = s.zeroPowerGuard := rfl
@[simp] theorem State.setCrcOk_frameCap (b : Bool) : (s.setCrcOk b).frameCap = s.frameCap := rfl
@[simp] theorem State.setCrcOk_cmds (b : Bool) : (s.setCrcOk b).cmds = s.cmds := rfl
@[simp] theorem State.setCrcOk_out (b : Bool) : (s.setCrcOk b).out = s.out := rfl
@[simp] theorem State.setCrcOk_readByte (b : Bool) (a : Nat) : (s.setCrcOk b).readByte a = s.readByte a := rfl

/-! ### setRValid -/

@[simp] theorem State.setRValid_crc (b : Bool) : (s.setRValid b).crc = s.crc := rfl
@[simp] theorem State.setRValid_crcOut (b : Bool) : (s.setRValid b).crcOut = s.crcOut := rfl
@[simp] theorem State.setRValid_len (b : Bool) : (s.setRValid b).len = s.len := rfl
@[simp] theorem State.setRValid_crcOk (b : Bool) : (s.setRValid b).crcOk = s.crcOk := rfl
@[simp] theorem State.setRValid_rValid (b : Bool) : (s.setRValid b).rValid = b := rfl
@[simp] theorem State.setRValid_ovf (b : Bool) : (s.setRValid b).ovf = s.ovf := rfl
@[simp] theorem State.setRValid_divZ (b : Bool) : (s.setRValid b).divZ = s.divZ := rfl
@[simp] theorem State.setRValid_res (b : Bool) : (s.setRValid b).res = s.res := rfl
@[simp] theorem State.setRValid_buf (b : Bool) : (s.setRValid b).buf = s.buf := rfl
@[simp] theorem State.setRValid_swapEn (b : Bool) : (s.setRValid b).swapEn = s.swapEn := rfl
@[simp] theorem State.setRValid_zeroPowerGuard (b : Bool) : (s.setRValid b).zeroPowerGuard = s.zeroPowerGuard := rfl
@[simp] theorem State.setRValid_frameCap (b : Bool) : (s.setRValid b).frameCap = s.frameCap := rfl
@[simp] theorem State.setRValid_cmds (b : Bool) : (s.setRValid b).cmds = s.cmds := rfl
@[simp] theorem State.setRValid_out (b : Bool) : (s.setRValid b).out = s.out := rfl
@[simp] theorem State.setRValid_readByte (b : Bool) (a : Nat) : (s.setRValid b).readByte a = s.readByte a := rfl

/-! ### setOvf -/

@[simp] theorem State.setOvf_crc (b : Bool) : (s.setOvf b).crc = s.crc := rfl
@[simp] theorem State.setOvf_crcOut (b : Bool) : (s.setOvf b).crcOut = s.crcOut := rfl
@[simp] theorem State.setOvf_len (b : Bool) : (s.setOvf b).len = s.len := rfl
@[simp] theorem State.setOvf_crcOk (b : Bool) : (s.setOvf b).crcOk = s.crcOk := rfl
@[simp] theorem State.setOvf_rValid (b : Bool) : (s.setOvf b).rValid = s.rValid := rfl
@[simp] theorem State.setOvf_ovf (b : Bool) : (s.setOvf b).ovf = b := rfl
@[simp] theorem State.setOvf_divZ (b : Bool) : (s.setOvf b).divZ = s.divZ := rfl
@[simp] theorem State.setOvf_res (b : Bool) : (s.setOvf b).res = s.res := rfl
@[simp] theorem State.setOvf_buf (b : Bool) : (s.setOvf b).buf = s.buf := rfl
@[simp] theorem State.setOvf_swapEn (b : Bool) : (s.setOvf b).swapEn = s.swapEn := rfl
@[simp] theorem State.setOvf_zeroPowerGuard (b : Bool) : (s.setOvf b).zeroPowerGuard = s.zeroPowerGuard := rfl
@[simp] theorem State.setOvf_frameCap (b : Bool) : (s.setOvf b).frameCap = s.frameCap := rfl
@[simp] theorem State.setOvf_cmds (b : Bool) : (s.setOvf b).cmds = s.cmds := rfl
@[simp] theorem State.setOvf_out (b : Bool) : (s.setOvf b).out = s.out := rfl
@[simp] theorem State.setOvf_readByte (b : Bool) (a : Nat) : (s.setOvf b).readByte a = s.readByte a := rfl

/-! ### setDivZ -/

@[simp] theorem State.setDivZ_crc (b : Bool) : (s.setDivZ b).crc = s.crc := rfl
@[simp] theorem State.setDivZ_crcOut (b : Bool) : (s.setDivZ b).crcOut = s.crcOut := rfl
@[simp] theorem State.setDivZ_len (b : Bool) : (s.setDivZ b).len = s.len := rfl
@[simp] theorem State.setDivZ_crcOk (b : Bool) : (s.setDivZ b).crcOk = s.crcOk := rfl
@[simp] theorem State.setDivZ_rValid (b : Bool) : (s.setDivZ b).rValid = s.rValid := rfl
@[simp] theorem State.setDivZ_ovf (b : Bool) : (s.setDivZ b).ovf = s.ovf := rfl
@[simp] theorem State.setDivZ_divZ (b : Bool) : (s.setDivZ b).divZ = b := rfl
@[simp] theorem State.setDivZ_res (b : Bool) : (s.setDivZ b).res = s.res := rfl
@[simp] theorem State.setDivZ_buf (b : Bool) : (s.setDivZ b).buf = s.buf := rfl
@[simp] theorem State.setDivZ_swapEn (b : Bool) : (s.setDivZ b).swapEn = s.swapEn := rfl
@[simp] theorem State.setDivZ_zeroPowerGuard (b : Bool) : (s.setDivZ b).zeroPowerGuard = s.zeroPowerGuard := rfl
@[simp] theorem State.setDivZ_frameCap (b : Bool) : (s.setDivZ b).frameCap = s.frameCap := rfl
@[simp] theorem State.setDivZ_cmds (b : Bool) : (s.setDivZ b).cmds = s.cmds := rfl
@[simp] theorem State.setDivZ_out (b : Bool) : (s.setDivZ b).out = s.out := rfl
@[simp] theorem State.setDivZ_readByte (b : Bool) (a : Nat) : (s.setDivZ b).readByte a = s.readByte a := rfl

/-! ### setCrc -/

@[simp] theorem State.setCrc_crc (c : Half) : (s.setCrc c).crc = c := rfl
@[simp] theorem State.setCrc_crcOut (c : Half) : (s.setCrc c).crcOut = s.crcOut := rfl
@[simp] theorem State.setCrc_len (c : Half) : (s.setCrc c).len = s.len := rfl
@[simp] theorem State.setCrc_crcOk (c : Half) : (s.setCrc c).crcOk = s.crcOk := rfl
@[simp] theorem State.setCrc_rValid (c : Half) : (s.setCrc c).rValid = s.rValid := rfl
@[simp] theorem State.setCrc_ovf (c : Half) : (s.setCrc c).ovf = s.ovf := rfl
@[simp] theorem State.setCrc_divZ (c : Half) : (s.setCrc c).divZ = s.divZ := rfl
@[simp] theorem State.setCrc_res (c : Half) : (s.setCrc c).res = s.res := rfl
@[simp] theorem State.setCrc_buf (c : Half) : (s.setCrc c).buf = s.buf := rfl
@[simp] theorem State.setCrc_swapEn (c : Half) : (s.setCrc c).swapEn = s.swapEn := rfl
@[simp] theorem State.setCrc_zeroPowerGuard (c : Half) : (s.setCrc c).zeroPowerGuard = s.zeroPowerGuard := rfl
@[simp] theorem State.setCrc_frameCap (c : Half) : (s.setCrc c).frameCap = s.frameCap := rfl
@[simp] theorem State.setCrc_cmds (c : Half) : (s.setCrc c).cmds = s.cmds := rfl
@[simp] theorem State.setCrc_out (c : Half) : (s.setCrc c).out = s.out := rfl
@[simp] theorem State.setCrc_readByte (c : Half) (a : Nat) : (s.setCrc c).readByte a = s.readByte a := rfl

/-! ### setCrcOut -/

@[simp] theorem State.setCrcOut_crc (c : Half) : (s.setCrcOut c).crc = s.crc := rfl
@[simp] theorem State.setCrcOut_crcOut (c : Half) : (s.setCrcOut c).crcOut = c := rfl
@[simp] theorem State.setCrcOut_len (c : Half) : (s.setCrcOut c).len = s.len := rfl
@[simp] theorem State.setCrcOut_crcOk (c : Half) : (s.setCrcOut c).crcOk = s.crcOk := rfl
@[simp] theorem State.setCrcOut_rValid (c : Half) : (s.setCrcOut c).rValid = s.rValid := rfl
@[simp] theorem State.setCrcOut_ovf (c : Half) : (s.setCrcOut c).ovf = s.ovf := rfl
@[simp] theorem State.setCrcOut_divZ (c : Half) : (s.setCrcOut c).divZ = s.divZ := rfl
@[simp] theorem State.setCrcOut_res (c : Half) : (s.setCrcOut c).res = s.res := rfl
@[simp] theorem State.setCrcOut_buf (c : Half) : (s.setCrcOut c).buf = s.buf := rfl
@[simp] theorem State.setCrcOut_swapEn (c : Half) : (s.setCrcOut c).swapEn = s.swapEn := rfl
@[simp] theorem State.setCrcOut_zeroPowerGuard (c : Half) : (s.setCrcOut c).zeroPowerGuard = s.zeroPowerGuard := rfl
@[simp] theorem State.setCrcOut_frameCap (c : Half) : (s.setCrcOut c).frameCap = s.frameCap := rfl
@[simp] theorem State.setCrcOut_cmds (c : Half) : (s.setCrcOut c).cmds = s.cmds := rfl
@[simp] theorem State.setCrcOut_out (c : Half) : (s.setCrcOut c).out = s.out := rfl
@[simp] theorem State.setCrcOut_readByte (c : Half) (a : Nat) : (s.setCrcOut c).readByte a = s.readByte a := rfl

/-! ### setLen -/

@[simp] theorem State.setLen_crc (n : Nat) : (s.setLen n).crc = s.crc := rfl
@[simp] theorem State.setLen_crcOut (n : Nat) : (s.setLen n).crcOut = s.crcOut := rfl
@[simp] theorem State.setLen_len (n : Nat) : (s.setLen n).len = n := rfl
@[simp] theorem State.setLen_crcOk (n : Nat) : (s.setLen n).crcOk = s.crcOk := rfl
@[simp] theorem State.setLen_rValid (n : Nat) : (s.setLen n).rValid = s.rValid := rfl
@[simp] theorem State.setLen_ovf (n : Nat) : (s.setLen n).ovf = s.ovf := rfl
@[simp] theorem State.setLen_divZ (n : Nat) : (s.setLen n).divZ = s.divZ := rfl
@[simp] theorem State.setLen_res (n : Nat) : (s.setLen n).res = s.res := rfl
@[simp] theorem State.setLen_buf (n : Nat) : (s.setLen n).buf = s.buf := rfl
@[simp] theorem State.setLen_swapEn (n : Nat) : (s.setLen n).swapEn = s.swapEn := rfl
@[simp] theorem State.setLen_zeroPowerGuard (n : Nat) : (s.setLen n).zeroPowerGuard = s.zeroPowerGuard := rfl
@[simp] theorem State.setLen_frameCap (n : Nat) : (s.setLen n).frameCap = s.frameCap := rfl
@[simp] theorem State.setLen_cmds (n : Nat) : (s.setLen n).cmds = s.cmds := rfl
@[simp] theorem State.setLen_out (n : Nat) : (s.setLen n).out = s.out := rfl
@[simp] theorem State.setLen_readByte (n : Nat) (a : Nat) : (s.setLen n).readByte a = s.readByte a := rfl

/-! ### setResults -/

@[simp] theorem State.setResults_crc (r : Results) : (s.setResults r).crc = s.crc := rfl
@[simp] theorem State.setResults_crcOut (r : Results) : (s.setResults r).crcOut = s.crcOut := rfl
@[simp] theorem State.setResults_len (r : Results) : (s.setResults r).len = s.len := rfl
@[simp] theorem State.setResults_crcOk (r : Results) : (s.setResults r).crcOk = s.crcOk := rfl
@[simp] theorem State.setResults_rValid (r : Results) : (s.setResults r).rValid = s.rValid := rfl
@[simp] theorem State.setResults_ovf (r : Results) : (s.setResults r).ovf = s.ovf := rfl
@[simp] theorem State.setResults_divZ (r : Results) : (s.setResults r).divZ = s.divZ := rfl
@[simp] theorem State.setResults_res (r : Results) : (s.setResults r).res = r := rfl
@[simp] theorem State.setResults_buf (r : Results) : (s.setResults r).buf = s.buf := rfl
@[simp] theorem State.setResults_swapEn (r : Results) : (s.setResults r).swapEn = s.swapEn := rfl
@[simp] theorem State.setResults_zeroPowerGuard (r : Results) : (s.setResults r).zeroPowerGuard = s.zeroPowerGuard := rfl
@[simp] theorem State.setResults_frameCap (r : Results) : (s.setResults r).frameCap = s.frameCap := rfl
@[simp] theorem State.setResults_cmds (r : Results) : (s.setResults r).cmds = s.cmds := rfl
@[simp] theorem State.setResults_out (r : Results) : (s.setResults r).out = s.out := rfl
@[simp] theorem State.setResults_readByte (r : Results) (a : Nat) : (s.setResults r).readByte a = s.readByte a := rfl

/-! ### setCmds -/

@[simp] theorem State.setCmds_crc (ws : List Cmd) : (s.setCmds ws).crc = s.crc := rfl
@[simp] theorem State.setCmds_crcOut (ws : List Cmd) : (s.setCmds ws).crcOut = s.crcOut := rfl
@[simp] theorem State.setCmds_len (ws : List Cmd) : (s.setCmds ws).len = s.len := rfl
@[simp] theorem State.setCmds_crcOk (ws : List Cmd) : (s.setCmds ws).crcOk = s.crcOk := rfl
@[simp] theorem State.setCmds_rValid (ws : List Cmd) : (s.setCmds ws).rValid = s.rValid := rfl
@[simp] theorem State.setCmds_ovf (ws : List Cmd) : (s.setCmds ws).ovf = s.ovf := rfl
@[simp] theorem State.setCmds_divZ (ws : List Cmd) : (s.setCmds ws).divZ = s.divZ := rfl
@[simp] theorem State.setCmds_res (ws : List Cmd) : (s.setCmds ws).res = s.res := rfl
@[simp] theorem State.setCmds_buf (ws : List Cmd) : (s.setCmds ws).buf = s.buf := rfl
@[simp] theorem State.setCmds_swapEn (ws : List Cmd) : (s.setCmds ws).swapEn = s.swapEn := rfl
@[simp] theorem State.setCmds_zeroPowerGuard (ws : List Cmd) : (s.setCmds ws).zeroPowerGuard = s.zeroPowerGuard := rfl
@[simp] theorem State.setCmds_frameCap (ws : List Cmd) : (s.setCmds ws).frameCap = s.frameCap := rfl
@[simp] theorem State.setCmds_cmds (ws : List Cmd) : (s.setCmds ws).cmds = ws := rfl
@[simp] theorem State.setCmds_out (ws : List Cmd) : (s.setCmds ws).out = s.out := rfl
@[simp] theorem State.setCmds_readByte (ws : List Cmd) (a : Nat) : (s.setCmds ws).readByte a = s.readByte a := rfl

/-! ### setOut -/

@[simp] theorem State.setOut_crc (r : Option Response) : (s.setOut r).crc = s.crc := rfl
@[simp] theorem State.setOut_crcOut (r : Option Response) : (s.setOut r).crcOut = s.crcOut := rfl
@[simp] theorem State.setOut_len (r : Option Response) : (s.setOut r).len = s.len := rfl
@[simp] theorem State.setOut_crcOk (r : Option Response) : (s.setOut r).crcOk = s.crcOk := rfl
@[simp] theorem State.setOut_rValid (r : Option Response) : (s.setOut r).rValid = s.rValid := rfl
@[simp] theorem State.setOut_ovf (r : Option Response) : (s.setOut r).ovf = s.ovf := rfl
@[simp] theorem State.setOut_divZ (r : Option Response) : (s.setOut r).divZ = s.divZ := rfl
@[simp] theorem State.setOut_res (r : Option Response) : (s.setOut r).res = s.res := rfl
@[simp] theorem State.setOut_buf (r : Option Response) : (s.setOut r).buf = s.buf := rfl
@[simp] theorem State.setOut_swapEn (r : Option Response) : (s.setOut r).swapEn = s.swapEn := rfl
@[simp] theorem State.setOut_zeroPowerGuard (r : Option Response) : (s.setOut r).zeroPowerGuard = s.zeroPowerGuard := rfl
@[simp] theorem State.setOut_frameCap (r : Option Response) : (s.setOut r).frameCap = s.frameCap := rfl
@[simp] theorem State.setOut_cmds (r : Option Response) : (s.setOut r).cmds = s.cmds := rfl
@[simp] theorem State.setOut_out (r : Option Response) : (s.setOut r).out = r := rfl
@[simp] theorem State.setOut_readByte (r : Option Response) (a : Nat) : (s.setOut r).readByte a = s.readByte a := rfl

/-! ### withdrawFrame -/

@[simp] theorem State.withdrawFrame_crc : (s.withdrawFrame).crc = s.crc := rfl
@[simp] theorem State.withdrawFrame_crcOut : (s.withdrawFrame).crcOut = s.crcOut := rfl
@[simp] theorem State.withdrawFrame_len : (s.withdrawFrame).len = s.len := rfl
@[simp] theorem State.withdrawFrame_crcOk : (s.withdrawFrame).crcOk = false := rfl
@[simp] theorem State.withdrawFrame_rValid : (s.withdrawFrame).rValid = false := rfl
@[simp] theorem State.withdrawFrame_ovf : (s.withdrawFrame).ovf = s.ovf := rfl
@[simp] theorem State.withdrawFrame_divZ : (s.withdrawFrame).divZ = s.divZ := rfl
@[simp] theorem State.withdrawFrame_res : (s.withdrawFrame).res = s.res := rfl
@[simp] theorem State.withdrawFrame_buf : (s.withdrawFrame).buf = s.buf := rfl
@[simp] theorem State.withdrawFrame_swapEn : (s.withdrawFrame).swapEn = s.swapEn := rfl
@[simp] theorem State.withdrawFrame_zeroPowerGuard : (s.withdrawFrame).zeroPowerGuard = s.zeroPowerGuard := rfl
@[simp] theorem State.withdrawFrame_frameCap : (s.withdrawFrame).frameCap = s.frameCap := rfl
@[simp] theorem State.withdrawFrame_cmds : (s.withdrawFrame).cmds = s.cmds := rfl
@[simp] theorem State.withdrawFrame_out : (s.withdrawFrame).out = s.out := rfl
@[simp] theorem State.withdrawFrame_readByte (a : Nat) : (s.withdrawFrame).readByte a = s.readByte a := rfl

/-! ### leaveChecksum -/

@[simp] theorem State.leaveChecksum_crc (c : Half) : (s.leaveChecksum c).crc = c := rfl
@[simp] theorem State.leaveChecksum_crcOut (c : Half) : (s.leaveChecksum c).crcOut = swap16 c := rfl
@[simp] theorem State.leaveChecksum_len (c : Half) : (s.leaveChecksum c).len = s.len := rfl
@[simp] theorem State.leaveChecksum_crcOk (c : Half) : (s.leaveChecksum c).crcOk = s.crcOk := rfl
@[simp] theorem State.leaveChecksum_rValid (c : Half) : (s.leaveChecksum c).rValid = s.rValid := rfl
@[simp] theorem State.leaveChecksum_ovf (c : Half) : (s.leaveChecksum c).ovf = s.ovf := rfl
@[simp] theorem State.leaveChecksum_divZ (c : Half) : (s.leaveChecksum c).divZ = s.divZ := rfl
@[simp] theorem State.leaveChecksum_res (c : Half) : (s.leaveChecksum c).res = s.res := rfl
@[simp] theorem State.leaveChecksum_buf (c : Half) : (s.leaveChecksum c).buf = s.buf := rfl
@[simp] theorem State.leaveChecksum_swapEn (c : Half) : (s.leaveChecksum c).swapEn = s.swapEn := rfl
@[simp] theorem State.leaveChecksum_zeroPowerGuard (c : Half) : (s.leaveChecksum c).zeroPowerGuard = s.zeroPowerGuard := rfl
@[simp] theorem State.leaveChecksum_frameCap (c : Half) : (s.leaveChecksum c).frameCap = s.frameCap := rfl
@[simp] theorem State.leaveChecksum_cmds (c : Half) : (s.leaveChecksum c).cmds = s.cmds := rfl
@[simp] theorem State.leaveChecksum_out (c : Half) : (s.leaveChecksum c).out = s.out := rfl
@[simp] theorem State.leaveChecksum_readByte (c : Half) (a : Nat) : (s.leaveChecksum c).readByte a = s.readByte a := rfl

end Sys2Proof.Machine
end

