-- ==== Sys2Proof/Laws/Memory.lean ====
section
/-! SUPPORT. The frame buffer: read after write, the canonical form is kept, and what a read of several bytes gives. -/

namespace Sys2Proof.Machine

/-! ### The memory as a list -/

theorem memLookup_memInsert_self (a : Nat) (b : Byte) (m : Memory) : memLookup a (memInsert a b m) = some b := by
  induction m with
  | nil => simp [memInsert, memLookup]
  | cons c m ih =>
    unfold memInsert
    split_ifs with h1 h2
    · simp [memLookup]
    · simp [memLookup]
    · simp [memLookup, h2, ih]

theorem memLookup_memInsert_other {a k : Nat} (h : k ≠ a) (b : Byte) (m : Memory) :
    memLookup k (memInsert a b m) = memLookup k m := by
  induction m with
  | nil => simp [memInsert, memLookup, h]
  | cons c m ih =>
    unfold memInsert
    split_ifs with h1 h2
    · simp [memLookup, h]
    · subst h2; simp [memLookup, h]
    · simp [memLookup, ih]

/-- The entries of a memory after a write: the one written and old ones. -/
theorem mem_memInsert {a : Nat} {b : Byte} {m : Memory} {c : Host.Cell} (h : c ∈ memInsert a b m) :
    c = (a, b) ∨ c ∈ m := by
  induction m with
  | nil => simpa [memInsert] using h
  | cons d m ih =>
    unfold memInsert at h
    split_ifs at h with h1 h2
    · simpa using h
    · rcases List.mem_cons.1 h with h | h
      · exact .inl h
      · exact .inr (List.mem_cons_of_mem _ h)
    · rcases List.mem_cons.1 h with h | h
      · exact .inr (h ▸ List.mem_cons_self)
      · exact (ih h).imp_right (List.mem_cons_of_mem _)

/-- The one write operation of the memory keeps the canonical form. -/
theorem memInsert_wf {m : Memory} (h : Memory.wf m) (a : Nat) (b : Byte) : Memory.wf (memInsert a b m) := by
  induction m with
  | nil => simp [memInsert, Memory.wf]
  | cons c m ih =>
    obtain ⟨hc, hm⟩ := List.pairwise_cons.1 h
    unfold memInsert
    split_ifs with h1 h2
    · refine List.pairwise_cons.2 ⟨fun d hd => ?_, h⟩
      rcases List.mem_cons.1 hd with rfl | hd
      · exact h1
      · exact h1.trans (hc d hd)
    · exact List.pairwise_cons.2 ⟨fun d hd => h2 ▸ hc d hd, hm⟩
    · refine List.pairwise_cons.2 ⟨fun d hd => ?_, ih hm⟩
      rcases mem_memInsert hd with rfl | hd
      · simp only; omega
      · exact hc d hd

/-- The memory after reset is in canonical form. -/
theorem reset_buf_wf : Memory.wf State.reset.buf := List.Pairwise.nil

/-- An index that no entry lists reads as the unlisted byte. -/
theorem memLookup_unlisted {a : Nat} {m : Memory} (h : ∀ c ∈ m, c.1 ≠ a) : memLookup a m = none := by
  induction m with
  | nil => rfl
  | cons c m ih =>
    have hc := h c List.mem_cons_self
    simp [memLookup, hc.symm, ih fun d hd => h d (List.mem_cons_of_mem _ hd)]

/-! ### One byte -/

/-- All that `BUF[a]` can answer. -/
theorem State.readByte_eq_ok {s : State} {a : Nat} {b : Byte} :
    s.readByte a = .ok b ↔ a < s.frameCap ∧ memLookup a s.buf = some b := by
  unfold State.readByte
  split_ifs with h
  · cases hm : memLookup a s.buf <;> simp [h]
  · simp [h]

/-- All that `BUF[a] <- b` can do when it answers. -/
theorem State.writeByte_eq_ok {s t : State} {a : Nat} {b : Byte} :
    s.writeByte a b = .ok t ↔ a < s.frameCap ∧ t = { s with buf := memInsert a b s.buf } := by
  unfold State.writeByte
  split_ifs with h
  · simp [h, eq_comm]
  · simp [h]

/-- Inside the buffer a write is always answered. -/
theorem State.writeByte_of_lt {s : State} {a : Nat} (h : a < s.frameCap) (b : Byte) :
    s.writeByte a b = .ok { s with buf := memInsert a b s.buf } := State.writeByte_eq_ok.2 ⟨h, rfl⟩

theorem State.readByte_writeByte_self {s t : State} {a : Nat} {b : Byte} (h : s.writeByte a b = .ok t) :
    t.readByte a = .ok b := by
  obtain ⟨ha, rfl⟩ := State.writeByte_eq_ok.1 h
  exact State.readByte_eq_ok.2 ⟨ha, memLookup_memInsert_self a b s.buf⟩

theorem State.readByte_writeByte_other {s t : State} {a k : Nat} {b : Byte} (h : s.writeByte a b = .ok t)
    (hk : k ≠ a) : t.readByte k = s.readByte k := by
  obtain ⟨_, rfl⟩ := State.writeByte_eq_ok.1 h
  simp [State.readByte, memLookup_memInsert_other hk]

/-! ### Several bytes -/

/-- Reads of the same bytes are the same read. -/
theorem State.readBytes_congr {s t : State} {a n : Nat}
    (h : ∀ k, a ≤ k → k < a + n → s.readByte k = t.readByte k) : s.readBytes a n = t.readBytes a n := by
  induction n generalizing a with
  | zero => rfl
  | succ n ih =>
    rw [State.readBytes, State.readBytes, h a le_rfl (by omega), ih fun k h1 h2 => h k (by omega) (by omega)]

/-- All that a read of `n` bytes can answer: the list of those bytes. -/
theorem State.readBytes_eq_ok {s : State} {a n : Nat} {F : List Byte} :
    s.readBytes a n = .ok F ↔ F.length = n ∧ ∀ k, k < n → s.readByte (a + k) = .ok (F.getD k 0#8) := by
  induction n generalizing a F with
  | zero =>
    constructor
    · intro h
      obtain rfl : [] = F := Except.ok.inj h
      exact ⟨rfl, fun _ h => absurd h (Nat.not_lt_zero _)⟩
    · rintro ⟨h, _⟩
      rw [List.length_eq_zero_iff.1 h]; rfl
  | succ n ih =>
    rw [State.readBytes]
    constructor
    · intro h
      split at h
      · simp at h
      · rename_i b hb
        split at h
        · simp at h
        · rename_i bs hbs
          obtain rfl : b :: bs = F := Except.ok.inj h
          obtain ⟨hl, hk⟩ := ih.1 hbs
          refine ⟨by simp [hl], fun k hlt => ?_⟩
          cases k with
          | zero => simpa using hb
          | succ k =>
            have := hk k (by omega)
            rw [show a + (k + 1) = a + 1 + k by omega]
            simpa using this
    · rintro ⟨hl, hk⟩
      cases F with
      | nil => simp at hl
      | cons b bs =>
        have hb : s.readByte a = .ok b := by simpa using hk 0 (by omega)
        have hbs : s.readBytes (a + 1) n = .ok bs := ih.2 ⟨by simpa using hl, fun k hlt => by
          have := hk (k + 1) (by omega)
          rw [show a + 1 + k = a + (k + 1) by omega]
          simpa using this⟩
        simp [hb, hbs]

/-- Where every byte can be read, the read of all of them is answered. -/
theorem State.readBytes_answers {s : State} {a n : Nat} (h : ∀ k, a ≤ k → k < a + n → ∃ b, s.readByte k = .ok b) :
    ∃ F, s.readBytes a n = .ok F := by
  induction n generalizing a with
  | zero => exact ⟨[], rfl⟩
  | succ n ih =>
    obtain ⟨b, hb⟩ := h a le_rfl (by omega)
    obtain ⟨bs, hbs⟩ := ih (a := a + 1) fun k h1 h2 => h k (by omega) (by omega)
    exact ⟨b :: bs, by simp [State.readBytes, hb, hbs]⟩

/-- A read of a first part of bytes that can be read. -/
theorem State.readBytes_take {s : State} {a n k : Nat} {F : List Byte} (h : s.readBytes a n = .ok F) (hk : k ≤ n) :
    s.readBytes a k = .ok (F.take k) := by
  obtain ⟨hl, hb⟩ := State.readBytes_eq_ok.1 h
  refine State.readBytes_eq_ok.2 ⟨by simp [hl, hk], fun j hj => ?_⟩
  rw [hb j (by omega)]
  simp [List.getD_eq_getElem?_getD, hj]

/-- A byte of the frame. -/
theorem State.frame_byte {s : State} {F : List Byte} (h : s.frame = .ok F) {k : Nat} (hk : k < s.len) :
    s.readByte k = .ok (F.getD k 0#8) := by
  simpa using (State.readBytes_eq_ok.1 h).2 k hk

/-- The frame has `LEN` bytes. -/
theorem State.frame_length {s : State} {F : List Byte} (h : s.frame = .ok F) : F.length = s.len :=
  (State.readBytes_eq_ok.1 h).1

/-- The frame is what its bytes say. -/
theorem State.frame_eq_ok {s : State} {F : List Byte} :
    s.frame = .ok F ↔ F.length = s.len ∧ ∀ k, k < s.len → s.readByte k = .ok (F.getD k 0#8) := by
  unfold State.frame
  rw [State.readBytes_eq_ok]
  simp only [Nat.zero_add]

/-- Two states with the same length and the same bytes below it hold the same frame. -/
theorem State.frame_congr {s t : State} (hl : s.len = t.len) (h : ∀ k, k < s.len → s.readByte k = t.readByte k) :
    s.frame = t.frame := by
  unfold State.frame
  rw [← hl]
  exact State.readBytes_congr fun k _ hk => h k (by omega)

/-- Two states with the same buffer and capacity read every byte alike. -/
theorem State.readByte_of_same_buffer {s t : State} (hb : t.buf = s.buf) (hc : t.frameCap = s.frameCap) (a : Nat) :
    t.readByte a = s.readByte a := by
  simp [State.readByte, hb, hc]

/-- Two states with the same buffer, capacity and length hold the same frame. -/
theorem State.frame_of_same_buffer {s t : State} (hb : t.buf = s.buf) (hc : t.frameCap = s.frameCap)
    (hl : t.len = s.len) : t.frame = s.frame :=
  State.frame_congr hl fun k _ => State.readByte_of_same_buffer hb hc k

/-- The frame of a state is the frame of every state with the same buffer, capacity and length. -/
theorem State.frame_ok_of_same_buffer {s t : State} {F : List Byte} (h : s.frame = .ok F) (hb : t.buf = s.buf)
    (hc : t.frameCap = s.frameCap) (hl : t.len = s.len) : t.frame = .ok F :=
  (State.frame_of_same_buffer hb hc hl).trans h

end Sys2Proof.Machine
end

