-- ==== Sys2Proof/Laws/Ops.lean ====
section
/-! SUPPORT. What each shared operation can do, said once: the response, an access to the buffer inside a command, the
write of the two trailer bytes, the extraction of the fields, and the two judgements of the codec. -/

namespace Sys2Proof.Machine

/-! ### The response and the accesses -/

@[simp] theorem State.respond_eq (s : State) (st : Status) (d : Word) :
    s.respond st d = .next { s with out := some { st := st, dout := d } } := rfl

@[simp] theorem State.illegalCommand_eq (s : State) :
    s.illegalCommand = .next { s with out := some { st := .illegalCommand, dout := 0#32 } } := rfl

@[simp] theorem onOk_ok {α : Type} (a : α) (k : α → Host.Outcome State Fault Refusal) : onOk (.ok a) k = k a := rfl

@[simp] theorem onOk_error {α : Type} (f : Fault) (k : α → Host.Outcome State Fault Refusal) :
    onOk (.error f) k = .fault f := rfl

/-- A length that fits the 32 bits of `dout` is zero-extended. -/
theorem lengthWord_of_lt {n : Nat} (h : n < 2 ^ 32) : lengthWord n = BitVec.ofNat 32 n := if_pos h

/-- Read back, a length that fits is itself. -/
theorem lengthWord_toNat {n : Nat} (h : n < 2 ^ 32) : (lengthWord n).toNat = n := by
  rw [lengthWord_of_lt h, BitVec.toNat_ofNat, Nat.mod_eq_of_lt h]

/-- A command that used an access and answers a next state: the access answered and the rest of the command did. -/
theorem onOk_eq_next {α : Type} {e : Except Fault α} {k : α → Host.Outcome State Fault Refusal} {t : State} :
    onOk e k = .next t ↔ ∃ a, e = .ok a ∧ k a = .next t := by
  cases e <;> simp

/-- All that the write of two bytes can do when it answers. -/
theorem State.writeBytes_pair {s t : State} {a : Nat} {b c : Byte} :
    s.writeBytes a [b, c] = .ok t ↔
      a + 1 < s.frameCap ∧ t = { s with buf := memInsert (a + 1) c (memInsert a b s.buf) } := by
  simp only [State.writeBytes, State.writeByte]
  by_cases h : a + 1 < s.frameCap
  · simp [h, show a < s.frameCap by omega, eq_comm]
  · by_cases h' : a < s.frameCap <;> simp [h, h']

/-- What every byte of the buffer reads as after two bytes are stored side by side. -/
theorem State.readByte_writeBytes_pair {s t : State} {a : Nat} {b c : Byte} (h : s.writeBytes a [b, c] = .ok t) :
    t.readByte a = .ok b ∧ t.readByte (a + 1) = .ok c ∧
      ∀ k, k ≠ a → k ≠ a + 1 → t.readByte k = s.readByte k := by
  obtain ⟨ha, rfl⟩ := State.writeBytes_pair.1 h
  refine ⟨State.readByte_eq_ok.2 ⟨by simp only; omega, ?_⟩, State.readByte_eq_ok.2 ⟨ha, ?_⟩, fun k h1 h2 => ?_⟩
  · rw [memLookup_memInsert_other (by omega), memLookup_memInsert_self]
  · rw [memLookup_memInsert_self]
  · simp [State.readByte, memLookup_memInsert_other h1, memLookup_memInsert_other h2]

/-! ### The fields of a frame -/

theorem append_byte_byte (a b : Byte) : a ++ b = BitVec.ofNat 16 (a.toNat * 256 + b.toNat) := by
  apply BitVec.eq_of_toNat_eq
  have ha := a.isLt; have hb := b.isLt
  rw [BitVec.toNat_append, ← Nat.shiftLeft_add_eq_or_of_lt hb, Nat.shiftLeft_eq, BitVec.toNat_ofNat]
  omega

theorem append_half_half (x y : Nat) (_ : x < 65536) (hy : y < 65536) :
    BitVec.ofNat 16 x ++ BitVec.ofNat 16 y = BitVec.ofNat 32 (x * 65536 + y) := by
  apply BitVec.eq_of_toNat_eq
  rw [BitVec.toNat_append, ← Nat.shiftLeft_add_eq_or_of_lt (BitVec.ofNat 16 y).isLt, Nat.shiftLeft_eq]
  simp only [BitVec.toNat_ofNat]
  omega

theorem groupAt_lt (F : List Byte) (a : Nat) : groupAt F a < 65536 := by
  have h1 := (F.getD a 0#8).isLt
  have h2 := (F.getD (a + 1) 0#8).isLt
  unfold groupAt; omega

/-- `BE16(a)` inside the frame. -/
theorem State.readGroup_of_frame {s : State} {F : List Byte} (h : s.frame = .ok F) {a : Nat} (ha : a + 1 < s.len) :
    s.readGroup a = .ok (BitVec.ofNat 16 (groupAt F a)) := by
  unfold State.readGroup
  rw [State.frame_byte h (by omega : a < _), State.frame_byte h ha]
  exact congrArg Except.ok (append_byte_byte _ _)

/-- `pair(a)` inside the frame. -/
theorem State.readPair_of_frame {s : State} {F : List Byte} (h : s.frame = .ok F) {a : Nat} (ha : a + 3 < s.len) :
    s.readPair a = .ok (BitVec.ofNat 32 (pairAt s.swapEn F a)) := by
  unfold State.readPair
  rw [State.readGroup_of_frame h (by omega : a + 1 < _), State.readGroup_of_frame h (by omega : a + 2 + 1 < _)]
  refine congrArg Except.ok ?_
  have h1 := groupAt_lt F a
  have h2 := groupAt_lt F (a + 2)
  cases hs : s.swapEn
  · simpa [pairAt] using append_half_half _ _ h1 h2
  · simpa [pairAt] using append_half_half _ _ h2 h1

/-- The extraction of the fields from a frame that reaches to offset 22 is the pure decoding of the frame. -/
theorem State.readFields_of_frame {s : State} {F : List Byte} (h : s.frame = .ok F) (hl : 23 ≤ s.len) :
    s.readFields = .ok (fieldsOf s.swapEn F) := by
  unfold State.readFields
  rw [State.readGroup_of_frame h (by omega : 3 + 1 < _), State.readPair_of_frame h (by omega : 5 + 3 < _),
    State.readPair_of_frame h (by omega : 9 + 3 < _), State.readPair_of_frame h (by omega : 13 + 3 < _),
    State.readGroup_of_frame h (by omega : 17 + 1 < _), State.readGroup_of_frame h (by omega : 19 + 1 < _),
    State.readGroup_of_frame h (by omega : 21 + 1 < _)]
  rfl

/-- The extraction reads the bytes 3 to 22 and `SWAP_EN` alone. -/
theorem State.readFields_congr {s t : State} (hs : s.swapEn = t.swapEn)
    (h : ∀ k, 3 ≤ k → k ≤ 22 → s.readByte k = t.readByte k) : s.readFields = t.readFields := by
  have hg : ∀ a, 3 ≤ a → a ≤ 21 → s.readGroup a = t.readGroup a := fun a h1 h2 => by
    unfold State.readGroup; rw [h a (by omega) (by omega), h (a + 1) (by omega) (by omega)]
  have hp : ∀ a, 3 ≤ a → a ≤ 19 → s.readPair a = t.readPair a := fun a h1 h2 => by
    unfold State.readPair; rw [hg a (by omega) (by omega), hg (a + 2) (by omega) (by omega), hs]
  unfold State.readFields
  rw [hg 3, hp 5, hp 9, hp 13, hg 17, hg 19, hg 21] <;> omega

/-! ### The judgements of the codec -/

/-- The integer form of the gate against its bounds form (rule R105). -/
theorem gateRejects_eq_false {r : Results} (hp : r.powr ≠ 0#32) :
    gateRejects r.volt r.curr r.powr = false ↔ ∀ g, accepted g r = true := by
  simp only [gateRejects, accepted, hp, if_false, decide_eq_false_iff_not, Bool.and_eq_true, decide_eq_true_eq,
    forall_const]
  rw [← Nat.cast_mul]
  generalize r.curr.toNat * r.volt.toNat = x
  omega

/-- All that the judgement of a trailer does: it always answers, and compares both bytes. -/
theorem judgeTrailer_eq (s : State) (c : Half) (t0 t1 : Byte) :
    judgeTrailer s c t0 t1 = .next { s with
      crc := c, crcOut := swap16 c,
      crcOk := decide (highByte (swap16 c) = t0 ∧ lowByte (swap16 c) = t1),
      out := some { st := if highByte (swap16 c) = t0 ∧ lowByte (swap16 c) = t1 then .ok else .crcMismatch,
                    dout := (swap16 c).setWidth 32 } } := by
  unfold judgeTrailer
  by_cases h : highByte (swap16 c) = t0 ∧ lowByte (swap16 c) = t1
  · simp only [if_pos h, decide_eq_true h]; rfl
  · simp only [if_neg h, decide_eq_false h]; rfl

/-- All that the judgement of the fields does: it always answers, and accepts exactly what makes a Reading. -/
theorem judgeFields_eq (s : State) (r : Results) :
    judgeFields s r = .next (if accepted s.zeroPowerGuard r then
      { s with res := r, rValid := true, out := some { st := .ok, dout := 0#32 } }
    else
      { s with divZ := decide (r.powr = 0#32) || s.divZ, rValid := false,
               out := some { st := .badValue, dout := 0#32 } }) := by
  unfold judgeFields acceptReading
  by_cases hp : r.powr = 0#32
  · cases hg : s.zeroPowerGuard <;>
      simp [hp, hg, accepted, State.setResults, State.setRValid, State.setDivZ]
  · have hrej := gateRejects_eq_false hp
    cases hr : gateRejects r.volt r.curr r.powr
    · have : accepted s.zeroPowerGuard r = true := hrej.1 hr _
      simp [hp, this, State.setResults, State.setRValid]
    · have : accepted s.zeroPowerGuard r = false := by
        cases ha : accepted s.zeroPowerGuard r with
        | false => rfl
        | true =>
          have : gateRejects r.volt r.curr r.powr = false :=
            hrej.2 fun g => by simpa [accepted, hp] using ha
          simp [hr] at this
      simp [hp, this, State.setRValid]

end Sys2Proof.Machine
end

