-- ==== Sys2Proof/Laws/PerInstr.lean ====
section
/-! SUPPORT. Statements about every command as syntax, one lemma per constructor. -/

namespace Sys2Proof.Laws

/-- The command word carries the opcode in bits 11..8 and the operand in bits 7..0 (30_encoding.md rule R55). -/
def EncodesInFields.Statement (i : Instr) : Prop := opField (encode i) = opcode i ∧ argField (encode i) = operand i

/-- The fields of a word put together from an opcode and an operand. -/
theorem fields_of_append (op : BitVec 4) (b : Byte) : opField (op ++ b) = op ∧ argField (op ++ b) = b := by
  constructor
  · ext i hi
    simp only [opField, BitVec.getElem_extractLsb', BitVec.getLsbD_append]
    simp [hi]
  · ext i hi
    simp only [argField, BitVec.getElem_extractLsb', BitVec.getLsbD_append]
    simp [hi]

theorem EncodesInFields.crcInit : EncodesInFields.Statement .crcInit := fields_of_append _ _
theorem EncodesInFields.crcUpd (b : Byte) : EncodesInFields.Statement (.crcUpd b) := fields_of_append _ _
theorem EncodesInFields.crcFin : EncodesInFields.Statement .crcFin := fields_of_append _ _
theorem EncodesInFields.tbl (i : Byte) : EncodesInFields.Statement (.tbl i) := fields_of_append _ _
theorem EncodesInFields.qry (i : Byte) : EncodesInFields.Statement (.qry i) := fields_of_append _ _
theorem EncodesInFields.frmClr : EncodesInFields.Statement .frmClr := fields_of_append _ _
theorem EncodesInFields.frmPush (b : Byte) : EncodesInFields.Statement (.frmPush b) := fields_of_append _ _
theorem EncodesInFields.frmSfx : EncodesInFields.Statement .frmSfx := fields_of_append _ _
theorem EncodesInFields.frmVal : EncodesInFields.Statement .frmVal := fields_of_append _ _
theorem EncodesInFields.frmDec : EncodesInFields.Statement .frmDec := fields_of_append _ _
theorem EncodesInFields.rd (sel : Byte) : EncodesInFields.Statement (.rd sel) := fields_of_append _ _

end Sys2Proof.Laws
end

