-- ==== Sys2Proof/Laws/Step.lean ====
section
/-! SUPPORT. What a step can do, said once: nothing on the port, an illegal word, or a command. -/

namespace Sys2Proof.Machine

/-- With no word on the port a step answers the same state without a response. -/
theorem step_nil {s : State} (h : s.cmds = []) : step s = .next { s with out := none } := by
  simp [step, h, State.setOut]

/-- With a word on the port a step answers `IllegalCommand` or runs the command the word decodes to. -/
theorem step_cons {s : State} {w : Cmd} {ws : List Cmd} (h : s.cmds = w :: ws) :
    step s = match decode w with
      | .error _ => .next { s with cmds := ws, out := some { st := .illegalCommand, dout := 0#32 } }
      | .ok i => exec i { s with cmds := ws } := by
  simp only [step, h]
  cases decode w <;> rfl

/-- All that a step can do when it answers a next state. -/
theorem step_cases {s t : State} (h : step s = .next t) :
    (s.cmds = [] ∧ t = { s with out := none }) ∨
    (∃ w ws, s.cmds = w :: ws ∧ (∃ why, decode w = .error why) ∧
      t = { s with cmds := ws, out := some { st := .illegalCommand, dout := 0#32 } }) ∨
    (∃ w ws i, s.cmds = w :: ws ∧ decode w = .ok i ∧ exec i { s with cmds := ws } = .next t) := by
  cases hc : s.cmds with
  | nil =>
    rw [step_nil hc] at h
    exact .inl ⟨rfl, by rw [← Host.Outcome.next.inj h, hc]⟩
  | cons w ws =>
    rw [step_cons hc] at h
    cases hd : decode w with
    | error why =>
      rw [hd] at h
      exact .inr (.inl ⟨w, ws, rfl, ⟨why, hd⟩, (Host.Outcome.next.inj h).symm⟩)
    | ok i =>
      rw [hd] at h
      exact .inr (.inr ⟨w, ws, i, rfl, hd, h⟩)

/-- Running any machine for one more step, where that step answers a next state. -/
theorem run_succ_of_step (M : Host.Core) {s t : M.State} (h : M.step s = .next t) (n : Nat) :
    M.run (n + 1) s = M.run n t := by
  rw [Host.Core.run, h]

/-- Running this machine for one more step, where that step answers a next state. -/
theorem run_succ {s t : State} (h : step s = .next t) (n : Nat) :
    Host.Core.run Sys2Proof.core (n + 1) s = Host.Core.run Sys2Proof.core n t :=
  run_succ_of_step Sys2Proof.core h n

/-- Running this machine for no step. -/
theorem run_zero (s : State) : Host.Core.run Sys2Proof.core 0 s = .next s := rfl

/-- Presenting a word puts it first on the port and changes nothing else. -/
theorem withFetchWord_eq (s : State) (nbits w : Nat) :
    s.withFetchWord nbits w = { s with cmds := portWord nbits w :: s.cmds } := rfl

end Sys2Proof.Machine
end

