-- ==== Sys2Proof/Tests/Slice0.lean ====
section
/-! SUPPORT. The tests: the smoke tests of WellFormed, decoding of words written out from the spec's encoding, one-step
tests whose expected values are those of 95_test_vectors.md and 96_test_vectors_codec.md, and for every statement with
hypotheses the witnesses that meet them. -/

namespace Sys2Proof.Tests

open Sys2Proof Sys2Proof.Machine

/-! ### Helpers -/

/-- The next state of an outcome. -/
def nextOf : Host.Outcome State Fault Refusal → Option State
  | .next s => some s
  | .fault _ => none
  | .refused _ => none

/-- The state after a command; the same state where there is none. -/
def after (i : Instr) (s : State) : State := (nextOf (exec i s)).getD s

/-- The response of a command as its status and `dout`. -/
def reply (i : Instr) (s : State) : Option (Status × Nat) :=
  (nextOf (exec i s)).bind fun t => t.out.map fun r => (r.st, r.dout.toNat)

/-- A state whose frame is the given bytes. -/
def holding (F : List Byte) (s : State) : State :=
  { s with len := F.length, buf := F.zipIdx.map fun p => (p.2, p.1) }

/-- A state of capacity 25 with `n` bytes in its frame. -/
def small (n : Nat) : State := holding (List.replicate n 0x55#8) (State.resetWith true false 25)

/-- The frame of vector V9. -/
def v9 : List Byte :=
  [0x01#8, 0x04#8, 0x14#8, 0x08#8, 0x9C#8, 0x00#8, 0xC8#8, 0x00#8, 0x00#8, 0x01#8, 0xC6#8, 0x00#8, 0x00#8, 0x27#8,
   0x10#8, 0x00#8, 0x00#8, 0x01#8, 0xF4#8, 0x00#8, 0x64#8, 0x00#8, 0x00#8, 0xD9#8, 0xD7#8]

/-- The second frame of vector V7: grossly inconsistent. -/
def v7bad : List Byte :=
  [0x01#8, 0x04#8, 0x14#8, 0x08#8, 0x98#8, 0x27#8, 0x10#8, 0x00#8, 0x00#8, 0x00#8, 0x0A#8, 0x00#8, 0x00#8, 0x00#8,
   0x00#8, 0x00#8, 0x00#8, 0x01#8, 0xF4#8, 0x00#8, 0x64#8, 0x00#8, 0x00#8, 0x25#8, 0x1F#8]

/-- The first frame of vector V11: zero power. -/
def v11 : List Byte :=
  [0x01#8, 0x04#8, 0x14#8, 0x08#8, 0xFC#8, 0x00#8, 0x00#8, 0x00#8, 0x00#8, 0x00#8, 0x00#8, 0x00#8, 0x00#8, 0x30#8,
   0x39#8, 0x00#8, 0x00#8, 0x01#8, 0xF4#8, 0x00#8, 0x00#8, 0x00#8, 0x00#8, 0x9A#8, 0x26#8]

/-- A validated frame in the buffer. -/
def validated (F : List Byte) (s : State) : State := { holding F s with crcOk := true }

/-- The state after the frame of V9 is validated and decoded. -/
def readV9 : State := { validated v9 State.reset with rValid := true, res := fieldsOf true v9 }

/-- The state after the zero-power frame is validated and decoded under the guard strap. -/
def readV11 : State :=
  { validated v11 (State.resetWith true true 256) with rValid := true, res := fieldsOf true v11 }

/-! ### WellFormed and Decode -/

theorem test_query_index_8_ill_formed : (Instr.qry 8#8).wellFormed = false := by decide
theorem test_query_index_7_well_formed : (Instr.qry 7#8).wellFormed = true := by decide
theorem test_selector_11_ill_formed : (Instr.rd 11#8).wellFormed = false := by decide
theorem test_selector_10_well_formed : (Instr.rd 10#8).wellFormed = true := by decide

/-- Every constructor's decoding, on words written out bit by bit, `op` before `arg` (rules R55 and R56). -/
theorem test_decode_crcInit : decode 0b0001_00000000#12 = .ok .crcInit := by decide
theorem test_decode_crcUpd : decode 0b0010_10100101#12 = .ok (.crcUpd 0xA5#8) := by decide
theorem test_decode_crcFin : decode 0b0011_00000000#12 = .ok .crcFin := by decide
theorem test_decode_tbl : decode 0b0100_10000001#12 = .ok (.tbl 0x81#8) := by decide
theorem test_decode_qry : decode 0b0101_00000111#12 = .ok (.qry 7#8) := by decide
theorem test_decode_frmClr : decode 0b0110_00000000#12 = .ok .frmClr := by decide
theorem test_decode_frmPush : decode 0b0111_10101011#12 = .ok (.frmPush 0xAB#8) := by decide
theorem test_decode_frmSfx : decode 0b1000_00000000#12 = .ok .frmSfx := by decide
theorem test_decode_frmVal : decode 0b1001_00000000#12 = .ok .frmVal := by decide
theorem test_decode_frmDec : decode 0b1010_00000000#12 = .ok .frmDec := by decide
theorem test_decode_rd : decode 0b1011_00001010#12 = .ok (.rd 10#8) := by decide

/-- The illegal words of vector V19, with the reason of rule R58 for each. -/
theorem test_decode_illegal :
    decode 0x0FF#12 = .error .reservedOpcode ∧ decode 0x1FF#12 = .error .nonzeroArg ∧
    decode 0x380#12 = .error .nonzeroArg ∧ decode 0x508#12 = .error .queryIndex ∧
    decode 0x601#12 = .error .nonzeroArg ∧ decode 0x810#12 = .error .nonzeroArg ∧
    decode 0x901#12 = .error .nonzeroArg ∧ decode 0xA01#12 = .error .nonzeroArg ∧
    decode 0xBFF#12 = .error .selector ∧ decode 0xFFF#12 = .error .reservedOpcode := by decide

/-- The bits above the 12 of the port are zero in a table word. -/
theorem test_table_word : decodeTableWord 16 0x7AB = some (.frmPush 0xAB#8) ∧ decodeTableWord 16 0x50F = none := by
  decide

/-- A presented word is the next one executed, as the first command after reset. -/
theorem test_presented_word_runs : nextOf (step (State.reset.withFetchWord 16 0x231)) =
    nextOf (exec (.crcUpd 0x31#8) State.reset) := by decide

/-- A comment, an operand in both forms, a selector by name, and the lines the assembler must reject (rule R60). -/
theorem test_assemble_lines :
    assembleLine "FRM.PUSH 0x9C ; a byte".toList = .ok [.frmPush 0x9C#8] ∧
    assembleLine "CRC.UPD 10".toList = .ok [.crcUpd 0x0A#8] ∧
    assembleLine "RD VOLT".toList = .ok [.rd 4#8] ∧
    assembleLine "QRY 8".toList = .error (.illegal .queryIndex) ∧
    assembleLine "CRC.FIN 1".toList = .error (.illegal .nonzeroArg) := by decide +kernel

/-- Pseudo-instructions in text (rule R61): the words of vector V1 steps 1 to 3 and 8, and of `RD.ALL`. -/
theorem test_assemble_pseudo :
    assemble ["CRC.MSG 0x01 0x04".toList] = .ok [0x100#12, 0x201#12, 0x204#12, 0x300#12] ∧
    assemble ["FRM.SEAL 1".toList, "RD.ALL".toList] =
      .ok [0x600#12, 0x701#12, 0x800#12, 0xB04#12, 0xB05#12, 0xB06#12, 0xB07#12, 0xB08#12, 0xB09#12, 0xB0A#12] := by
  decide +kernel

/-! ### One step of each command -/

/-- V5, sequencing step 6: `CRC.INIT` leaves `CRCOUT`. -/
theorem test_crcInit : let s := { State.reset with crc := 0x1234#16, crcOut := 0x95F5#16 }
    reply .crcInit s = some (.ok, 0x0000FFFF) ∧ (after .crcInit s).crcOut = 0x95F5#16 := by decide
/-- V5: from `CRC = 0x1234` the byte `56`. -/
theorem test_crcUpd : reply (.crcUpd 0x56#8) { State.reset with crc := 0x1234#16 } = some (.ok, 0xE993) := by decide
/-- V1, step 2: the first byte of the query frame. -/
theorem test_crcUpd_first : reply (.crcUpd 0x01#8) State.reset = some (.ok, 0x807E) := by decide
/-- V5: `CRC.FIN` swaps the bytes and leaves `CRC`. -/
theorem test_crcFin : let s := { State.reset with crc := 0x1234#16 }
    reply .crcFin s = some (.ok, 0x3412) ∧ (after .crcFin s).crc = 0x1234#16 := by decide
/-- V2: entry 3 of the table. -/
theorem test_tbl : reply (.tbl 0x03#8) State.reset = some (.ok, 0x0140) := by decide
/-- V2: entry 255 of the table. -/
theorem test_tbl_last : reply (.tbl 0xFF#8) State.reset = some (.ok, 0x4040) := by decide
/-- V1: byte 6 of the query frame is `70`. -/
theorem test_qry : reply (.qry 6#8) State.reset = some (.ok, 0x70) := by decide
/-- V19: `QRY 8` is illegal. -/
theorem test_qry_illegal : reply (.qry 8#8) State.reset = some (.illegalCommand, 0) := by decide
/-- Rule R85: the bytes of the buffer stay. -/
theorem test_frmClr : let s := { small 2 with ovf := true, crcOk := true }
    reply .frmClr s = some (.ok, 0) ∧ (after .frmClr s).flagsWord = 0#32 ∧ (after .frmClr s).buf = s.buf := by decide
/-- Rule R86: the byte goes to index `LEN`, and a decoded Reading is withdrawn. -/
theorem test_frmPush : let s := { small 2 with rValid := true, crcOk := true }
    reply (.frmPush 0xA7#8) s = some (.ok, 3) ∧ (after (.frmPush 0xA7#8) s).readByte 2 = .ok 0xA7#8 ∧
    (after (.frmPush 0xA7#8) s).flagsWord = 0#32 := by decide
/-- Rule R86: in a full buffer the byte is dropped and `OVF` set. -/
theorem test_frmPush_full : reply (.frmPush 0xA7#8) (small 25) = some (.overflow, 25) ∧
    (after (.frmPush 0xA7#8) (small 25)).flagsWord = 4#32 := by decide
/-- Rules R5 and R86: in a larger buffer the length goes on beyond the 9 bits that the default capacity needs. -/
theorem test_frmPush_past_511 : let s := { State.resetWith true false 1000 with len := 511 }
    reply (.frmPush 0xA7#8) s = some (.ok, 512) ∧ (after (.frmPush 0xA7#8) s).readByte 511 = .ok 0xA7#8 ∧
    reply (.rd 2#8) (after (.frmPush 0xA7#8) s) = some (.ok, 512) := by decide
/-- V3: sealing the byte `00` appends `BF 40`. -/
theorem test_frmSfx : let s := holding [0x00#8] State.reset
    reply .frmSfx s = some (.ok, 0xBF40) ∧ (after .frmSfx s).frame = .ok [0x00#8, 0xBF#8, 0x40#8] := by decide +kernel
/-- Rule R87: one byte of room is not enough. -/
theorem test_frmSfx_full : reply .frmSfx (small 24) = some (.overflow, 0) ∧
    (after .frmSfx (small 24)).len = 24 := by decide
/-- V9: the frame validates. -/
theorem test_frmVal : let s := holding v9 State.reset
    reply .frmVal s = some (.ok, 0xD9D7) ∧ (after .frmVal s).crcOk = true ∧ (after .frmVal s).crc = 0xD7D9#16 := by
  decide +kernel
/-- V12: one flipped bit. -/
theorem test_frmVal_corrupted : let s := validated (v9.set 4 0x9D#8) State.reset
    reply .frmVal s = some (.crcMismatch, 0xE42B) ∧ (after .frmVal s).crcOk = false := by decide +kernel
/-- V9: the fields of the Reading. -/
theorem test_frmDec : let s := validated v9 State.reset
    reply .frmDec s = some (.ok, 0) ∧ (after .frmDec s).flagsWord = 3#32 ∧ (after .frmDec s).res =
      { volt := 0x89C#16, curr := 0xC8#32, powr := 0x1C6#32, enrg := 0x2710#32, freq := 0x1F4#16, pfac := 0x64#16,
        alrt := 0x0#16 } := by decide +kernel
/-- V7 second case and V11: the gate rejects, and zero power sets `DIVZ`. -/
theorem test_frmDec_rejected :
    reply .frmDec (validated v7bad State.reset) = some (.badValue, 0) ∧
    (after .frmDec (validated v7bad State.reset)).flagsWord = 1#32 ∧
    reply .frmDec (validated v11 State.reset) = some (.badValue, 0) ∧
    (after .frmDec (validated v11 State.reset)).flagsWord = 9#32 := by decide +kernel
/-- V9: `RD POWR` after the decode. -/
theorem test_rd : reply (.rd 6#8) readV9 = some (.ok, 0x1C6) := by decide +kernel
/-- Rule R112: no Reading after reset. -/
theorem test_rd_noReading : reply (.rd 6#8) State.reset = some (.noReading, 0) := by decide

/-! ### Witnesses: states and operands that meet the hypotheses of the statements -/

/-- The command answers a next state of which `p` holds. -/
def answers (o : Host.Outcome State Fault Refusal) (p : State → Bool) : Bool :=
  match nextOf o with
  | some t => p t
  | none => false

theorem next_of_answers {o : Host.Outcome State Fault Refusal} {p : State → Bool} (h : answers o p = true) :
    ∃ t, o = .next t ∧ p t = true := by
  cases o with
  | next t => exact ⟨t, rfl, h⟩
  | fault f => simp [answers, nextOf] at h
  | refused r => simp [answers, nextOf] at h

/-- A state whose frame is `F` keeps the invariant where the rest of it, all decidable, holds. -/
theorem inv_of_frame {s : State} {F : List Byte} (hF : s.frame = .ok F) (hw : Memory.wf s.buf)
    (hi : ∀ c ∈ s.buf, c.1 < s.frameCap) (hc : 25 ≤ s.frameCap) (hl : s.len ≤ s.frameCap)
    (hv : s.crcOk = true → s.ovf = false ∧ 2 ≤ s.len ∧ trailerOk F = true)
    (hr : s.rValid = true → s.crcOk = true ∧ s.divZ = false ∧ 25 ≤ s.len ∧ s.res = fieldsOf s.swapEn F ∧
      accepted s.zeroPowerGuard s.res = true)
    (ht : s.ovf = true → s.frameCap ≤ s.len + 1) : s.Inv :=
  ⟨hw, hi, hc, hl, fun _ hk => ⟨_, State.frame_byte hF hk⟩,
    fun h => ⟨(hv h).1, (hv h).2.1, F, hF, (hv h).2.2⟩,
    fun h => ⟨(hr h).1, (hr h).2.1, (hr h).2.2.1, F, hF, (hr h).2.2.2⟩, ht⟩

/-- The invariant holds with a readable Reading of a power other than 0. -/
theorem inv_readV9 : readV9.Inv := by
  apply inv_of_frame (F := v9) <;> decide +kernel

/-- The invariant holds with a readable Reading of power 0, under the guard strap. -/
theorem inv_readV11 : readV11.Inv := by
  apply inv_of_frame (F := v11) <;> decide +kernel

/-- The invariant holds in a buffer of capacity 25 with 0, 21, 23, 24 or 25 bytes. -/
theorem inv_small (n : Nat) (h : n ∈ [0, 21, 23, 24, 25]) : (small n).Inv := by
  have hn : n = 0 ∨ n = 21 ∨ n = 23 ∨ n = 24 ∨ n = 25 := by simpa using h
  rcases hn with rfl | rfl | rfl | rfl | rfl
  · apply inv_of_frame (F := List.replicate 0 0x55#8) <;> decide +kernel
  · apply inv_of_frame (F := List.replicate 21 0x55#8) <;> decide +kernel
  · apply inv_of_frame (F := List.replicate 23 0x55#8) <;> decide +kernel
  · apply inv_of_frame (F := List.replicate 24 0x55#8) <;> decide +kernel
  · apply inv_of_frame (F := List.replicate 25 0x55#8) <;> decide +kernel

theorem witness_DecodeOfEncode : (Instr.qry 7#8).wellFormed = true ∧ (Instr.rd 10#8).wellFormed = true ∧
    (Instr.crcUpd 0xFF#8).wellFormed = true ∧ Instr.frmDec.wellFormed = true := by decide

theorem witness_DecodeAcceptsOnlyEncodings : decode 0xB0A#12 = .ok (.rd 10#8) := by decide

/-- Each kind of illegal word at its boundary, and the legal words beside them. -/
theorem witness_IllegalWords :
    ({ State.reset with cmds := [0x508#12] } : State).cmds = 0x508#12 :: [] ∧
    isIllegalWord 0x508#12 ∧ isIllegalWord 0xB0B#12 ∧ isIllegalWord 0x101#12 ∧ isIllegalWord 0x0FF#12 ∧
    isIllegalWord 0xC00#12 ∧ ¬ isIllegalWord 0x507#12 ∧ ¬ isIllegalWord 0xB0A#12 ∧ ¬ isIllegalWord 0x100#12 := by
  simp [isIllegalWord]

theorem witness_AssembleOfPrint : (Instr.qry 7#8).wellFormed = true ∧ (Instr.frmPush 0xAB#8).wellFormed = true := by
  decide

theorem witness_StepRunsDecoded : ({ State.reset with cmds := [0xB0A#12, 0x100#12] } : State).cmds =
    0xB0A#12 :: [0x100#12] ∧ decode 0xB0A#12 = .ok (.rd 10#8) := by decide

theorem witness_StepWithoutCommand : State.reset.cmds = [] := rfl

theorem witness_TableLaws : tableEntry 0xFF#8 = tableEntry 0xFF#8 ∧ tableEntry 0xFF#8 ≠ tableEntry 0x00#8 := by decide

/-- The arguments other than 0 that the statements on commands without an operand speak of. -/
theorem witness_nonzero_arg : (0x01#8 : Byte) ≠ 0#8 ∧ (0xFF#8 : Byte) ≠ 0#8 := by decide

theorem witness_StreamingChecksum : ({ State.reset with cmds := wordsOf (.crcMsg [0x01#8, 0x04#8]) ++ [0xB00#12] } : State).cmds =
    wordsOf (.crcMsg [0x01#8, 0x04#8]) ++ [0xB00#12] := rfl

theorem witness_InterleavedStreaming :
    let is : List Instr := [.crcUpd 0x31#8, .frmPush 7#8, .crcFin, .crcUpd 0x32#8]
    (∀ i ∈ is, breaksStream i = false) ∧ ∃ t, execAll is State.reset = .next t := ⟨by decide, _, rfl⟩

theorem witness_FrmPushResult : (small 25).len = (small 25).frameCap ∧
    (small 24).len < (small 24).frameCap ∧ (small 0).len < (small 0).frameCap := by decide

/-- Without room (`OVF = 1`, or one byte of room only) and with room (two bytes, exactly). -/
theorem witness_FrmSfxResult : ({ small 3 with ovf := true } : State).ovf = true ∧
    (small 24).len + 2 > (small 24).frameCap ∧
    (small 23).ovf = false ∧ (small 23).len + 2 ≤ (small 23).frameCap ∧
    (small 23).frame = .ok (List.replicate 23 0x55#8) := by decide +kernel

theorem witness_SealThenValidate : (small 23).Inv ∧ (small 23).ovf = false ∧
    (small 23).len + 2 ≤ (small 23).frameCap := ⟨inv_small 23 (by decide), by decide, by decide⟩

theorem witness_SecondSealAppendsZeros : (small 21).Inv ∧ (small 21).ovf = false ∧
    (small 21).len + 4 ≤ (small 21).frameCap := ⟨inv_small 21 (by decide), by decide, by decide⟩

theorem witness_QryResult : (7#8 : Byte).toNat < 8 ∧ 7 < (8#8 : Byte).toNat ∧ 0x5#4 ++ 8#8 = 0x508#12 := by decide

/-- As many bytes as the buffer holds, and none. -/
theorem witness_LoadedFrame :
    (List.replicate 25 0x55#8).length ≤ (small 3).frameCap ∧ ([] : List Byte).length ≤ (small 3).frameCap ∧
    ({ small 3 with cmds := wordsOf (.frmLoad (List.replicate 25 0x55#8)) ++ [] } : State).cmds =
      wordsOf (.frmLoad (List.replicate 25 0x55#8)) ++ [] := ⟨by decide, by decide, rfl⟩

/-- The shortest frame that can be checked, and one as long as the buffer. -/
theorem witness_CheckedFrame :
    2 ≤ v9.length ∧ v9.length ≤ (small 3).frameCap ∧ (small 3).frameCap = 25 ∧ v9.length = 25 ∧
    ({ small 3 with cmds := wordsOf (.frmCheck v9) ++ [] } : State).cmds = wordsOf (.frmCheck v9) ++ [] ∧
    2 ≤ [0xFF#8, 0xFF#8].length ∧ [0xFF#8, 0xFF#8].length ≤ (small 3).frameCap ∧
    ({ small 3 with cmds := wordsOf (.frmCheck [0xFF#8, 0xFF#8]) ++ [0xA00#12] } : State).cmds =
      wordsOf (.frmCheck [0xFF#8, 0xFF#8]) ++ [0xA00#12] :=
  ⟨by decide, by decide, rfl, rfl, rfl, by decide, by decide, rfl⟩

theorem witness_FrmValResult : ({ small 25 with ovf := true } : State).ovf = true ∧
    (small 1).ovf = false ∧ (small 1).len < 2 ∧
    (small 2).ovf = false ∧ 2 ≤ (small 2).len ∧ (small 2).frame = .ok [0x55#8, 0x55#8] ∧
    readV9.Inv ∧ readV9.rValid = true :=
  ⟨by decide, by decide, by decide, by decide, by decide, by decide, inv_readV9, rfl⟩

/-- Not validated; 24 bytes; 25 bytes of a frame that decodes, of an implausible one, and of one with power 0. -/
theorem witness_FrmDecResult : (small 25).crcOk = false ∧
    ({ small 24 with crcOk := true } : State).crcOk = true ∧ ({ small 24 with crcOk := true } : State).len < 25 ∧
    (validated v9 State.reset).crcOk = true ∧ 25 ≤ (validated v9 State.reset).len ∧
    (validated v9 State.reset).frame = .ok v9 ∧ gateRejects 2204#16 200#32 454#32 = false ∧
    (validated v7bad State.reset).frame = .ok v7bad ∧ (fieldsOf true v7bad).powr = 10#32 ∧
    gateRejects 2200#16 10000#32 10#32 = true ∧
    (validated v11 State.reset).frame = .ok v11 ∧ (fieldsOf true v11).powr = 0#32 := by decide +kernel

theorem witness_ChangedByteIsDetected : 2 ≤ v9.length ∧ 24 < v9.length ∧ v9.getD 24 0#8 ≠ 0xD6#8 ∧
    v9.getD 0 0#8 ≠ 0x02#8 ∧ trailerOk v9 = true := by decide +kernel

/-- V10: a power other than 0 on each side of both bounds of the gate. -/
theorem witness_GateIsExact : (20#32 : Word) ≠ 0#32 ∧
    gateRejects 10#16 1000#32 20#32 = false ∧ gateRejects 10#16 999#32 20#32 = true ∧
    gateRejects 15#16 1000#32 10#32 = false ∧ gateRejects 15#16 1001#32 10#32 = true := by decide

theorem witness_RdResult : State.reset.rValid = false ∧ 4 ≤ (4#8 : Byte).toNat ∧ (10#8 : Byte).toNat ≤ 10 ∧
    readV9.rValid = true ∧ 10 < (11#8 : Byte).toNat ∧ readV9.Inv :=
  ⟨rfl, by decide, by decide, rfl, by decide, inv_readV9⟩

/-- Two states that differ in the header, in the trailer and in `CRC`. -/
theorem witness_DecodeDependsOnFieldsOnly :
    let s := validated v9 State.reset
    let t := { validated ((v9.set 0 0x02#8).set 23 0x00#8) State.reset with crc := 0x1234#16 }
    s.crcOk = t.crcOk ∧ s.len = t.len ∧ s.swapEn = t.swapEn ∧ s.zeroPowerGuard = t.zeroPowerGuard ∧
    (∀ k, 3 ≤ k → k ≤ 22 → s.readByte k = t.readByte k) ∧ s ≠ t ∧ ∃ s', exec .frmDec s = .next s' := by
  refine ⟨rfl, rfl, rfl, rfl, fun k h1 h2 => ?_, by decide +kernel, ⟨_, rfl⟩⟩
  have h : ∀ k < 23, 3 ≤ k → (validated v9 State.reset).readByte k =
      ({ validated ((v9.set 0 0x02#8).set 23 0x00#8) State.reset with crc := 0x1234#16 } : State).readByte k := by
    decide +kernel
  exact h k (by omega) h1

theorem witness_ValidateAndDecodeRepeat :
    (∃ t, exec .frmVal (holding v9 State.reset) = .next t ∧ t.crcOk = true) ∧
    ∃ t, exec .frmDec (validated v9 State.reset) = .next t ∧ t.rValid = true :=
  ⟨next_of_answers (p := (·.crcOk)) (by decide +kernel), next_of_answers (p := (·.rValid)) (by decide +kernel)⟩

theorem witness_ReadableReadingIsPlausible : (readV9.Inv ∧ readV9.rValid = true) ∧
    (readV11.Inv ∧ readV11.rValid = true) := ⟨⟨inv_readV9, rfl⟩, ⟨inv_readV11, rfl⟩⟩

theorem witness_FirstCommandAfterReset : 25 ≤ 25 ∧ 25 ≤ Config.frameCapDefault := by decide

theorem witness_InvariantAtReset : 25 ≤ 25 ∧ 25 ≤ 100000 := by decide

theorem witness_StepKeepsInvariant : (∃ t, (small 24).Inv ∧ step (small 24) = .next t) ∧ readV9.Inv ∧
    ∃ t, step readV9 = .next t := ⟨⟨_, inv_small 24 (by decide), rfl⟩, inv_readV9, ⟨_, rfl⟩⟩

/-- The invariant says nothing of the words on the port, so a state that keeps it can have any of them there. -/
theorem witness_EveryWordIsAnswered : ({ small 25 with cmds := [0x700#12] } : State).Inv ∧
    ({ small 25 with cmds := [0x700#12] } : State).cmds ≠ [] := by
  refine ⟨?_, by decide⟩
  apply inv_of_frame (F := List.replicate 25 0x55#8) <;> decide +kernel

/-- Two states that differ in the result registers and in the bytes beyond the frame. -/
theorem witness_HiddenStateIsUnobservable :
    let s := { small 1 with cmds := [0x7AA#12] }
    let t := { s with buf := [(0, 0x55#8), (1, 0x33#8)], res := fieldsOf true v9 }
    s.SameVisible t ∧ s ≠ t := by
  refine ⟨⟨rfl, rfl, rfl, rfl, rfl, rfl, rfl, rfl, rfl, rfl, rfl, rfl, by simp [small, holding, State.resetWith],
    fun k hk => ?_⟩, by decide +kernel⟩
  obtain rfl : k = 0 := by
    have : k < 1 := hk
    omega
  decide

/-- Each clause on a flag: a command that sets or clears it, from a state where it was otherwise. -/
theorem witness_FlagWriters :
    (∃ t, exec .frmVal (holding v9 State.reset) = .next t ∧ t.crcOk = true) ∧
    (∃ t, exec .frmDec (validated v9 State.reset) = .next t ∧ t.rValid = true) ∧
    (∃ t, exec (.frmPush 0#8) (small 25) = .next t ∧ t.ovf = true) ∧
    (∃ t, exec .frmSfx (small 24) = .next t ∧ t.ovf = true) ∧
    (∃ t, exec .frmDec (validated v11 State.reset) = .next t ∧ t.divZ = true) ∧
    (∃ t, exec .frmClr readV9 = .next t ∧ (!t.crcOk && !t.rValid) = true) ∧
    (∃ t, exec .frmClr { small 25 with ovf := true } = .next t ∧ (!t.ovf) = true) ∧
    (∃ t, exec .frmDec { validated v9 State.reset with divZ := true } = .next t ∧ (!t.divZ) = true) :=
  ⟨next_of_answers (p := (·.crcOk)) (by decide +kernel), next_of_answers (p := (·.rValid)) (by decide +kernel),
    next_of_answers (p := (·.ovf)) (by decide +kernel), next_of_answers (p := (·.ovf)) (by decide +kernel),
    next_of_answers (p := (·.divZ)) (by decide +kernel),
    next_of_answers (p := fun t => !t.crcOk && !t.rValid) (by decide +kernel),
    next_of_answers (p := fun t => !t.ovf) (by decide +kernel),
    next_of_answers (p := fun t => !t.divZ) (by decide +kernel)⟩

theorem witness_StateWriters : (∃ t, exec .frmSfx (small 23) = .next t) ∧ (∃ t, exec (.rd 2#8) readV9 = .next t) ∧
    writesCrc (.rd 2#8) = false ∧ writesCrcOut (.rd 2#8) = false ∧ writesLen (.rd 2#8) = false ∧
    writesBuf (.rd 2#8) = false ∧ onlyResponds (.rd 2#8) = true ∧ 22 < (small 23).len :=
  ⟨⟨_, rfl⟩, ⟨_, rfl⟩, rfl, rfl, rfl, rfl, rfl, by decide⟩

theorem witness_StatusCodes : (Instr.rd 4#8).wellFormed = true ∧
    ∃ t r, exec (.rd 4#8) State.reset = .next t ∧ t.out = some r := ⟨by decide, _, _, rfl, rfl⟩

/-- The first index that does not exist, the last that does and nothing has written, and one that is listed. -/
theorem witness_BufferAccessStops : (small 3).frameCap ≤ 25 ∧ 24 < (small 3).frameCap ∧
    (∀ c ∈ (small 3).buf, c.1 ≠ 24) ∧ ∃ c ∈ (small 3).buf, c.1 = 2 := by decide

theorem witness_IllFormedCommandAnswersAsItsWord : (Instr.qry 8#8).wellFormed = false ∧
    (Instr.rd 11#8).wellFormed = false := by decide

/-- The least capacity and one that 9 bits do not hold, each with as many bytes; a full state of a small capacity. -/
theorem witness_CapacityAndLengthWidth : (25 ≤ 25 ∧ (List.replicate 25 0x55#8).length = 25) ∧
    (25 ≤ 1000 ∧ (List.replicate 1000 0x55#8).length = 1000) ∧
    (small 25).Inv ∧ (small 25).frameCap < 2 ^ 9 ∧ ∃ t, step (small 25) = .next t :=
  ⟨⟨by decide, List.length_replicate⟩, ⟨by decide, List.length_replicate⟩, inv_small 25 (by decide), by decide, _, rfl⟩

end Sys2Proof.Tests
end

section
/-! SUPPORT. The decoder gives legal commands only and undoes the encoder; what a step does on the word of a command. -/

namespace Sys2Proof.Machine

/-! ### The decoder and the encoder -/

/-- A command without an operand is decoded exactly from `arg = 0` (rule R55). -/
theorem noOperand_eq_ok {arg : Byte} {i j : Instr} : noOperand arg i = .ok j ↔ arg = 0#8 ∧ i = j := by
  unfold noOperand
  split_ifs with h <;> simp [h]

/-- The decoder accepts legal commands only (rules R57 and R58). -/
theorem wellFormed_of_decode {w : Cmd} {i : Instr} (h : decode w = .ok i) : i.wellFormed = true := by
  unfold decode at h
  split at h
  case h_1 | h_3 | h_6 | h_8 | h_9 | h_10 =>
    obtain ⟨-, rfl⟩ := noOperand_eq_ok.1 h
    rfl
  case h_2 | h_4 | h_7 =>
    obtain rfl := Except.ok.inj h
    rfl
  case h_5 | h_11 =>
    split_ifs at h with hok
    obtain rfl := Except.ok.inj h
    exact hok
  case h_12 => nomatch h

/-- Decoding the word of a legal command gives the command back (rules R55 to R57). -/
theorem decode_encode {i : Instr} (h : i.wellFormed = true) : decode (encode i) = .ok i := by
  obtain ⟨hop, harg⟩ := Laws.fields_of_append (opcode i) (operand i)
  unfold decode encode
  rw [hop, harg]
  cases i with
  | qry k => exact if_pos h
  | rd sel => exact if_pos h
  | _ => rfl

/-! ### The step -/

/-- A step on a word that decodes runs the command, with the word taken off the port (rules R39 and R41). -/
theorem step_of_decode {s : State} {w : Cmd} {ws : List Cmd} {i : Instr} (hc : s.cmds = w :: ws)
    (hd : decode w = .ok i) : step s = exec i { s with cmds := ws } := by
  rw [step_cons hc, hd]

/-- A step on the word of a legal command runs that command. -/
theorem step_encode {s : State} {ws : List Cmd} {i : Instr} (hc : s.cmds = encode i :: ws)
    (hi : i.wellFormed = true) : step s = exec i { s with cmds := ws } :=
  step_of_decode hc (decode_encode hi)

end Sys2Proof.Machine
end

section
/-! SUPPORT. What each command can do when it answers a next state, as far as the frame buffer and its length go. -/

namespace Sys2Proof.Machine

/-! ### The commands that write `LEN` -/

/-- The state that `FRM.CLR` leaves (rule R85). -/
def State.cleared (s : State) : State :=
  { s with len := 0, crcOk := false, rValid := false, ovf := false, out := some { st := .ok, dout := 0#32 } }

/-- The state that `FRM.PUSH b` leaves where the buffer has room (rule R86). -/
def State.pushed (s : State) (b : Byte) : State :=
  { s with crcOk := false, rValid := false, buf := memInsert s.len b s.buf, len := s.len + 1,
           out := some { st := .ok, dout := lengthWord (s.len + 1) } }

/-- All that `FRM.CLR` does. -/
theorem exec_frmClr (s : State) : exec .frmClr s = .next s.cleared := rfl

/-- `FRM.PUSH` on a full buffer stores nothing and sets `OVF` (rule R86). -/
theorem exec_frmPush_of_full {s : State} (h : s.len = s.frameCap) (b : Byte) :
    exec (.frmPush b) s = .next { s with
      crcOk := false, rValid := false, ovf := true, out := some { st := .overflow, dout := lengthWord s.len } } :=
  if_pos h

/-- `FRM.PUSH` with room stores the byte at `LEN` (rule R86). -/
theorem exec_frmPush_of_lt {s : State} (h : s.len < s.frameCap) (b : Byte) :
    exec (.frmPush b) s = .next (s.pushed b) := by
  have hw := State.writeByte_of_lt (s := s.withdrawFrame) h b
  simp only [exec, execFrmPush, if_neg h.ne, hw, onOk_ok]
  rfl

/-- All that `FRM.PUSH` can do when it answers: the buffer is full, or the byte is stored. -/
theorem exec_frmPush_cases {s t : State} {b : Byte} (h : exec (.frmPush b) s = .next t) :
    (s.len = s.frameCap ∧ t = { s with
      crcOk := false, rValid := false, ovf := true, out := some { st := .overflow, dout := lengthWord s.len } }) ∨
    (s.len < s.frameCap ∧ t = s.pushed b) := by
  by_cases hfull : s.len = s.frameCap
  · rw [exec_frmPush_of_full hfull] at h
    exact .inl ⟨hfull, (Host.Outcome.next.inj h).symm⟩
  · have hroom : s.len < s.frameCap := by
      simp only [exec, execFrmPush, if_neg hfull] at h
      obtain ⟨_, hw, -⟩ := onOk_eq_next.1 h
      exact (State.writeByte_eq_ok.1 hw).1
    rw [exec_frmPush_of_lt hroom] at h
    exact .inr ⟨hroom, (Host.Outcome.next.inj h).symm⟩

/-- All that `FRM.SFX` can do when it answers: there is no room, or the trailer of the frame is stored (rule R87). -/
theorem exec_frmSfx_cases {s t : State} (h : exec .frmSfx s = .next t) :
    ((s.ovf = true ∨ s.len + 2 > s.frameCap) ∧ t = { s with
      crcOk := false, rValid := false, ovf := true, out := some { st := .overflow, dout := 0#32 } }) ∨
    (s.ovf = false ∧ s.len + 2 ≤ s.frameCap ∧ ∃ F, s.frame = .ok F ∧ t = { s with
      crcOk := false, rValid := false, crc := crcRaw F, crcOut := crc16 F,
      buf := memInsert (s.len + 1) (lowByte (crc16 F)) (memInsert s.len (highByte (crc16 F)) s.buf),
      len := s.len + 2, out := some { st := .ok, dout := (crc16 F).setWidth 32 } }) := by
  simp only [exec, execFrmSfx] at h
  split_ifs at h with hfull
  · exact .inl ⟨hfull, (Host.Outcome.next.inj h).symm⟩
  · obtain ⟨hovf, hroom⟩ := not_or.1 hfull
    obtain ⟨F, hF, h⟩ := onOk_eq_next.1 h
    obtain ⟨u, hu, h⟩ := onOk_eq_next.1 h
    obtain ⟨-, rfl⟩ := State.writeBytes_pair.1 hu
    exact .inr ⟨by simpa using hovf, by omega, F, hF, (Host.Outcome.next.inj h).symm⟩

/-! ### The commands that leave the frame buffer alone -/

/-- `TBL`, `QRY` and `RD` always answer, and change nothing but the response (rule R35). -/
theorem exec_of_onlyResponds {i : Instr} (h : onlyResponds i = true) (s : State) :
    ∃ r, exec i s = .next { s with out := some r } := by
  cases i with
  | tbl k => exact ⟨_, rfl⟩
  | qry k =>
    simp only [exec, execQry]
    split_ifs <;> exact ⟨_, rfl⟩
  | rd sel =>
    simp only [exec, execRd]
    split
    · exact ⟨_, rfl⟩
    · split_ifs <;> exact ⟨_, rfl⟩
  | _ => nomatch h

/-- `FRM.VAL` writes `CRC`, `CRCOUT`, `CRCOK` and the response at most (rule R98). -/
theorem exec_frmVal_frame {s t : State} (h : exec .frmVal s = .next t) :
    t = { s with crc := t.crc, crcOut := t.crcOut, crcOk := t.crcOk, out := t.out } := by
  simp only [exec, execFrmVal] at h
  split_ifs at h with hovf hshort
  · obtain rfl := Host.Outcome.next.inj h
    rfl
  · obtain rfl := Host.Outcome.next.inj h
    rfl
  · obtain ⟨payload, -, h⟩ := onOk_eq_next.1 h
    obtain ⟨t0, -, h⟩ := onOk_eq_next.1 h
    obtain ⟨t1, -, h⟩ := onOk_eq_next.1 h
    rw [judgeTrailer_eq] at h
    obtain rfl := Host.Outcome.next.inj h
    rfl

/-- `FRM.DEC` writes the result registers, `RVALID`, `DIVZ` and the response at most (rule R101). -/
theorem exec_frmDec_frame {s t : State} (h : exec .frmDec s = .next t) :
    t = { s with res := t.res, rValid := t.rValid, divZ := t.divZ, out := t.out } := by
  simp only [exec, execFrmDec] at h
  split_ifs at h with hok hshort
  · obtain rfl := Host.Outcome.next.inj h
    rfl
  · obtain rfl := Host.Outcome.next.inj h
    rfl
  · obtain ⟨r, -, h⟩ := onOk_eq_next.1 h
    rw [judgeFields_eq] at h
    obtain rfl := Host.Outcome.next.inj h
    split_ifs <;> rfl

/-- A command that does not write `LEN` leaves the buffer, its length and `OVF`, the straps and the command port
(10_state.md section 1). -/
theorem exec_frame_of_not_writesLen {i : Instr} {s t : State} (hi : writesLen i = false) (h : exec i s = .next t) :
    t = { s with crc := t.crc, crcOut := t.crcOut, crcOk := t.crcOk, rValid := t.rValid, divZ := t.divZ,
                 res := t.res, out := t.out } := by
  have responds_frame (hr : onlyResponds i = true) : t = { s with out := t.out } := by
    obtain ⟨r, hr⟩ := exec_of_onlyResponds hr s
    obtain rfl := Host.Outcome.next.inj (hr.symm.trans h)
    rfl
  cases i with
  | crcInit | crcUpd b | crcFin =>
    obtain rfl := Host.Outcome.next.inj h
    rfl
  | tbl k | qry k | rd sel => rw [responds_frame rfl]
  | frmVal => rw [exec_frmVal_frame h]
  | frmDec => rw [exec_frmDec_frame h]
  | frmClr | frmPush b | frmSfx => nomatch hi

/-! ### `LEN` stays inside the buffer -/

/-- No command moves `LEN` past `FRAME_CAP` (rule R15). -/
theorem exec_len_le_frameCap {i : Instr} {s t : State} (hs : s.len ≤ s.frameCap) (h : exec i s = .next t) :
    t.len ≤ s.frameCap := by
  cases hi : writesLen i with
  | false =>
    rw [exec_frame_of_not_writesLen hi h]
    exact hs
  | true =>
    cases i with
    | frmClr =>
      obtain rfl := Host.Outcome.next.inj h
      exact Nat.zero_le _
    | frmPush b =>
      obtain ⟨-, rfl⟩ | ⟨hroom, rfl⟩ := exec_frmPush_cases h
      · exact hs
      · exact hroom
    | frmSfx =>
      obtain ⟨-, rfl⟩ | ⟨-, hroom, F, -, rfl⟩ := exec_frmSfx_cases h
      · exact hs
      · exact hroom
    | _ => nomatch hi

/-- No step moves `LEN` past `FRAME_CAP`. -/
theorem step_len_le_frameCap {s t : State} (hs : s.len ≤ s.frameCap) (h : step s = .next t) :
    t.len ≤ s.frameCap := by
  obtain ⟨-, rfl⟩ | ⟨w, ws, -, -, rfl⟩ | ⟨w, ws, i, -, -, hexec⟩ := step_cases h
  · exact hs
  · exact hs
  · exact exec_len_le_frameCap (s := { s with cmds := ws }) hs hexec

end Sys2Proof.Machine
end

section
/-! SUPPORT. Loading a frame: the run of `FRM.PUSH` commands, by induction on the bytes, and of `FRM.LOAD`. -/

namespace Sys2Proof.Machine

/-- No length at all as the data of a response. -/
theorem lengthWord_zero : lengthWord 0 = 0#32 := lengthWord_of_lt (by decide)

/-! ### One command of a load -/

/-- A step on the word of `FRM.CLR`. -/
theorem step_frmClr {s : State} {ws : List Cmd} (hc : s.cmds = encode .frmClr :: ws) :
    step s = .next (s.setCmds ws).cleared :=
  step_encode hc rfl

/-- A step on the word of `FRM.PUSH` with room in the buffer. -/
theorem step_frmPush_of_lt {s : State} {b : Byte} {ws : List Cmd} (hc : s.cmds = encode (.frmPush b) :: ws)
    (h : s.len < s.frameCap) :
    step s = .next ((s.setCmds ws).pushed b) :=
  (step_encode hc rfl).trans (exec_frmPush_of_lt (s := s.setCmds ws) h b)

/-- A step on the word of `FRM.PUSH` with the buffer full. -/
theorem step_frmPush_of_full {s : State} {b : Byte} {ws : List Cmd} (hc : s.cmds = encode (.frmPush b) :: ws)
    (h : s.len = s.frameCap) :
    step s = .next { s with
      crcOk := false, rValid := false, ovf := true, cmds := ws,
      out := some { st := .overflow, dout := lengthWord s.len } } :=
  (step_encode hc rfl).trans (exec_frmPush_of_full (s := s.setCmds ws) h b)

/-! ### The frame a load leaves -/

/-- The response of `FRM.CLR`, read as the length it leaves. -/
theorem State.cleared_out {s : State} :
    s.cleared.out = some { st := .ok, dout := lengthWord s.cleared.len } := by
  simp [State.cleared, lengthWord_zero]

/-- A frame of no bytes. -/
theorem State.frame_of_len_zero {s : State} (h : s.len = 0) : s.frame = .ok [] :=
  State.frame_eq_ok.2 ⟨h.symm, fun _ hk => absurd hk (by omega)⟩

/-- Taking words off the port leaves the frame. -/
@[simp] theorem State.setCmds_frame (s : State) (ws : List Cmd) : (s.setCmds ws).frame = s.frame :=
  State.frame_of_same_buffer rfl rfl rfl

/-- `FRM.PUSH` stores its byte at `LEN`. -/
theorem State.readByte_pushed_len {s : State} (hlt : s.len < s.frameCap) (b : Byte) :
    (s.pushed b).readByte s.len = .ok b :=
  State.readByte_eq_ok.2 ⟨hlt, memLookup_memInsert_self s.len b s.buf⟩

/-- `FRM.PUSH` leaves every other byte of the buffer. -/
theorem State.readByte_pushed_other {s : State} {k : Nat} (hk : k ≠ s.len) (b : Byte) :
    (s.pushed b).readByte k = s.readByte k := by
  simp [State.readByte, State.pushed, memLookup_memInsert_other hk]

/-- The byte that `FRM.PUSH` stores is the next byte of the frame. -/
theorem State.frame_pushed {s : State} {F : List Byte} (hF : s.frame = .ok F) (hlt : s.len < s.frameCap) (b : Byte) :
    (s.pushed b).frame = .ok (F ++ [b]) := by
  have hl : F.length = s.len := State.frame_length hF
  refine State.frame_eq_ok.2 ⟨by simp [hl, State.pushed], fun k (hk : k < s.len + 1) => ?_⟩
  obtain hold | rfl := Nat.lt_succ_iff_lt_or_eq.1 hk
  · rw [State.readByte_pushed_other hold.ne, State.frame_byte hF hold, List.getD_append _ _ _ _ (hl ▸ hold)]
  · rw [State.readByte_pushed_len hlt, List.getD_append_right _ _ _ _ hl.le, hl, Nat.sub_self]
    rfl

/-- The words of `FRM.PUSH` commands for bytes that fit append exactly these bytes to the frame. The response and the
flags are what a command that changed the buffer has left, so that no byte at all is no special case. -/
theorem run_frmPush_words {s : State} {F bytes : List Byte} {ws : List Cmd}
    (hc : s.cmds = (bytes.map Instr.frmPush).map encode ++ ws) (hF : s.frame = .ok F)
    (hroom : s.len + bytes.length ≤ s.frameCap) (hok : s.crcOk = false) (hrv : s.rValid = false)
    (hout : s.out = some { st := .ok, dout := lengthWord s.len }) :
    ∃ t : State, (∀ n, Host.Core.run Sys2Proof.core (bytes.length + n) s = Host.Core.run Sys2Proof.core n t) ∧
      t.frame = .ok (F ++ bytes) ∧
      t = { s with len := s.len + bytes.length, buf := t.buf, cmds := ws,
                   out := some { st := .ok, dout := lengthWord (s.len + bytes.length) } } := by
  induction bytes generalizing s F with
  | nil =>
    have hs : s = { s with cmds := ws, out := some { st := .ok, dout := lengthWord s.len } } := by
      rw [← hout, ← show s.cmds = ws from hc]
    exact ⟨s, fun n => by rw [List.length_nil, Nat.zero_add], by rw [hF, List.append_nil], hs⟩
  | cons b bytes ih =>
    rw [List.length_cons] at hroom
    have hlt : s.len < s.frameCap := by omega
    have hrest : s.len + 1 + bytes.length ≤ s.frameCap := by omega
    have hstep := step_frmPush_of_lt hc hlt
    have htaken : (s.setCmds ((bytes.map Instr.frmPush).map encode ++ ws)).frame = .ok F :=
      (s.setCmds_frame _).trans hF
    obtain ⟨t, hrun, ht, heq⟩ := ih rfl (State.frame_pushed htaken hlt b) hrest rfl rfl rfl
    refine ⟨t, fun n => ?_, by rw [ht, List.append_assoc, List.singleton_append], ?_⟩
    · rw [List.length_cons, Nat.succ_add]
      exact (run_succ hstep _).trans (hrun n)
    · rw [heq]
      simp only [State.pushed, State.setCmds, List.length_cons, hok, hrv, Nat.add_assoc, Nat.add_comm 1]

/-- The words of `FRM.LOAD bytes`, for at most `FRAME_CAP` bytes, leave exactly these bytes as the frame, from every
state (rules R61, R85 and R86). -/
theorem run_frmLoad {s : State} {bytes : List Byte} {ws : List Cmd} (hfits : bytes.length ≤ s.frameCap)
    (hc : s.cmds = wordsOf (.frmLoad bytes) ++ ws) :
    ∃ t : State, (∀ n, Host.Core.run Sys2Proof.core (bytes.length + 1 + n) s = Host.Core.run Sys2Proof.core n t) ∧
      t.frame = .ok bytes ∧
      t = { s with len := bytes.length, buf := t.buf, crcOk := false, rValid := false, ovf := false,
                   cmds := ws, out := some { st := .ok, dout := lengthWord bytes.length } } := by
  have hstep := step_frmClr hc
  obtain ⟨t, hrun, ht, heq⟩ := run_frmPush_words (s := (s.setCmds _).cleared) (ws := ws) rfl
    (State.frame_of_len_zero rfl) ((Nat.zero_add _).trans_le hfits) rfl rfl State.cleared_out
  refine ⟨t, fun n => ?_, ht, ?_⟩
  · rw [Nat.add_right_comm]
    exact (run_succ hstep _).trans (hrun n)
  · rw [heq]
    simp only [State.cleared, State.setCmds, Nat.zero_add]

/-- `FRM.LOAD` of as many bytes as the buffer holds, and then one byte more: the frame stays, and `OVF` is set. -/
theorem run_frmLoad_full_then_frmPush {s : State} {bytes : List Byte} {b : Byte} {ws : List Cmd}
    (hfull : bytes.length = s.frameCap) (hc : s.cmds = wordsOf (.frmLoad bytes) ++ encode (.frmPush b) :: ws) :
    ∃ t : State, Host.Core.run Sys2Proof.core (bytes.length + 2) s = .next t ∧
      t.frame = .ok bytes ∧ t.len = bytes.length ∧ t.ovf = true ∧
      t.out = some { st := .overflow, dout := lengthWord bytes.length } := by
  obtain ⟨u, hrun, hu, heq⟩ := run_frmLoad hfull.le hc
  have hlen : u.len = bytes.length := (State.frame_length hu).symm
  have hcap : u.frameCap = s.frameCap := by rw [heq]
  have hcmds : u.cmds = encode (.frmPush b) :: ws := by rw [heq]
  have hstep := step_frmPush_of_full hcmds (hlen.trans (hfull.trans hcap.symm))
  have hlast := (hrun 1).trans ((run_succ hstep 0).trans (run_zero _))
  exact ⟨_, hlast, State.frame_ok_of_same_buffer hu rfl rfl rfl, hlen, rfl, by rw [hlen]⟩

end Sys2Proof.Machine
end

section
/-! The statements of 00_scope.md. -/

namespace Sys2Proof.Proofs

open Sys2Proof.Machine

/-- Settles O6: the decoder gives legal commands only, and a step runs what it gives. -/
theorem stepRunsDecoded : Obligations.StepRunsDecoded := by
  intro s w ws i hc hd
  exact ⟨wellFormed_of_decode hd, step_of_decode hc hd⟩

/-- Settles O46: by the run of `FRM.LOAD` for every capacity, and because no step moves `LEN` past `FRAME_CAP`. -/
theorem capacityAndLengthWidth : Obligations.CapacityAndLengthWidth := by
  refine ⟨?_, fun s t hinv hcap hstep => ?_⟩
  · rintro sw zp cap bytes b - rfl
    exact run_frmLoad_full_then_frmPush rfl rfl
  · have hlen := step_len_le_frameCap hinv.lenInside hstep
    exact ⟨hinv.lenInside.trans_lt hcap, hlen.trans_lt hcap⟩

end Sys2Proof.Proofs
end

section
/-! SUPPORT. All that a command can do when it answers a next state, said once as a relation: each way a command can end,
with the condition for it and the state it leaves. -/

namespace Sys2Proof.Machine

/-! ### The states that commands leave -/

/-- The state that a command leaves which found no room in the buffer (rules R86 and R87). -/
def State.overflowed (s : State) (d : Word) : State :=
  { s with crcOk := false, rValid := false, ovf := true, out := some { st := .overflow, dout := d } }

/-- The state that `FRM.SFX` leaves where the buffer has room: the two bytes of the trailer are pushed (rule R87). -/
def State.sealedWith (s : State) (F : List Byte) : State :=
  { (s.pushed (highByte (crc16 F))).pushed (lowByte (crc16 F)) with
    crc := crcRaw F, crcOut := crc16 F, out := some { st := .ok, dout := (crc16 F).setWidth 32 } }

/-- The state that `FRM.VAL` leaves once it has judged the frame `F` (rule R98). -/
def State.judged (s : State) (F : List Byte) : State :=
  let payload := F.take (s.len - 2)
  { s with crc := crcRaw payload, crcOut := crc16 payload, crcOk := trailerOk F,
           out := some { st := if trailerOk F then .ok else .crcMismatch, dout := (crc16 payload).setWidth 32 } }

/-- The state that `FRM.VAL` leaves where there is no frame to judge (rule R98). -/
def State.notJudged (s : State) (st : Status) : State :=
  { s with crcOk := false, out := some { st := st, dout := 0#32 } }

/-- The state that a successful `FRM.DEC` leaves (rule R101). -/
def State.decoded (s : State) (r : Results) : State :=
  { s with divZ := false, res := r, rValid := true, out := some { st := .ok, dout := 0#32 } }

/-- The state that a failing `FRM.DEC` leaves (rules R101 and R106). -/
def State.notDecoded (s : State) (divZ : Bool) (st : Status) : State :=
  { s with divZ := divZ, rValid := false, out := some { st := st, dout := 0#32 } }

/-- The ways a command can end with a next state. -/
inductive Effect (s : State) : Instr → State → Prop
  /-- `CRC.INIT` (rule R76). -/
  | crcInit : Effect s .crcInit
      { s with crc := Config.crcInit, out := some { st := .ok, dout := Config.crcInit.setWidth 32 } }
  /-- `CRC.UPD` (rule R77). -/
  | crcUpd (b : Byte) : Effect s (.crcUpd b)
      { s with crc := crcStep s.crc b, out := some { st := .ok, dout := (crcStep s.crc b).setWidth 32 } }
  /-- `CRC.FIN` (rule R78). -/
  | crcFin : Effect s .crcFin
      { s with crcOut := swap16 s.crc, out := some { st := .ok, dout := (swap16 s.crc).setWidth 32 } }
  /-- `TBL`, `QRY` and `RD` (rule R35). -/
  | responds {i : Instr} (hi : onlyResponds i = true) (r : Response) : Effect s i
      { s with out := some r }
  /-- `FRM.CLR` (rule R85). -/
  | cleared : Effect s .frmClr s.cleared
  /-- `FRM.PUSH` with the buffer full (rule R86). -/
  | pushOverflow (b : Byte) (hfull : s.len = s.frameCap) : Effect s (.frmPush b)
      (s.overflowed (lengthWord s.len))
  /-- `FRM.PUSH` with room (rule R86). -/
  | pushed (b : Byte) (hroom : s.len < s.frameCap) : Effect s (.frmPush b) (s.pushed b)
  /-- `FRM.SFX` without room for the trailer (rule R87). -/
  | sealOverflow (hfull : s.ovf = true ∨ s.len + 2 > s.frameCap) : Effect s .frmSfx
      (s.overflowed 0#32)
  /-- `FRM.SFX` with room (rule R87). -/
  | sealed {F : List Byte} (hovf : s.ovf = false) (hroom : s.len + 2 ≤ s.frameCap)
      (hF : s.frame = .ok F) : Effect s .frmSfx (s.sealedWith F)
  /-- `FRM.VAL` on a truncated frame (rule R98). -/
  | valOverflow (hovf : s.ovf = true) : Effect s .frmVal (s.notJudged .overflow)
  /-- `FRM.VAL` on a frame without a trailer (rule R98). -/
  | valShort (hovf : s.ovf = false) (hshort : s.len < 2) : Effect s .frmVal (s.notJudged .shortFrame)
  /-- `FRM.VAL` on any other frame (rule R98). -/
  | judged {F : List Byte} (hovf : s.ovf = false) (hlen : 2 ≤ s.len) (hF : s.frame = .ok F) :
      Effect s .frmVal (s.judged F)
  /-- `FRM.DEC` on a frame that is not validated (rule R101). -/
  | decNotValidated (hok : s.crcOk = false) : Effect s .frmDec (s.notDecoded false .notValidated)
  /-- `FRM.DEC` on a frame shorter than a reply (rule R102). -/
  | decShort (hok : s.crcOk = true) (hshort : s.len < 25) :
      Effect s .frmDec (s.notDecoded false .shortFrame)
  /-- `FRM.DEC` of fields that are no Reading (rules R105 and R106). -/
  | decRejected {r : Results} (hok : s.crcOk = true) (hlen : 25 ≤ s.len) (hr : s.readFields = .ok r)
      (hacc : accepted s.zeroPowerGuard r = false) :
      Effect s .frmDec (s.notDecoded (decide (r.powr = 0#32)) .badValue)
  /-- `FRM.DEC` of a Reading (rules R101 and R103). -/
  | decoded {r : Results} (hok : s.crcOk = true) (hlen : 25 ≤ s.len) (hr : s.readFields = .ok r)
      (hacc : accepted s.zeroPowerGuard r = true) : Effect s .frmDec (s.decoded r)

/-! ### Each command of the frame, as an equation per case -/

/-- `FRM.PUSH` beyond the buffer stops: the byte does not exist (log entry 6). -/
theorem exec_frmPush_of_gt {s : State} (h : s.frameCap < s.len) (b : Byte) :
    exec (.frmPush b) s = .fault (.bufOutOfRange s.len) := by
  have hw : s.withdrawFrame.writeByte s.len b = .error (.bufOutOfRange s.len) := if_neg h.not_gt
  simp only [exec, execFrmPush, if_neg h.ne', hw, onOk_error]

/-- `FRM.SFX` without room for the trailer stores nothing (rule R87). -/
theorem exec_frmSfx_of_full {s : State} (h : s.ovf = true ∨ s.len + 2 > s.frameCap) :
    exec .frmSfx s = .next (s.overflowed 0#32) := if_pos h

/-- `FRM.SFX` with room reads the frame and appends its trailer (rule R87). -/
theorem exec_frmSfx_of_room {s : State} (hovf : s.ovf = false) (hroom : s.len + 2 ≤ s.frameCap) :
    exec .frmSfx s = onOk s.frame fun F => .next (s.sealedWith F) := by
  have hfits : ¬ (s.ovf = true ∨ s.len + 2 > s.frameCap) := by simp [hovf, hroom]
  simp only [exec, execFrmSfx, if_neg hfits]
  refine congrArg (onOk s.frame) (funext fun F => ?_)
  have hw := (State.writeBytes_pair (s := s.withdrawFrame.leaveChecksum (crcRaw F))
    (b := highByte (crc16 F)) (c := lowByte (crc16 F))).2 ⟨Nat.lt_of_succ_le hroom, rfl⟩
  exact congrArg (onOk · _) hw

/-- `FRM.VAL` on a truncated frame (rule R98). -/
theorem exec_frmVal_of_ovf {s : State} (h : s.ovf = true) : exec .frmVal s = .next (s.notJudged .overflow) := if_pos h

/-- `FRM.VAL` on a frame too short for a trailer (rule R98). -/
theorem exec_frmVal_of_short {s : State} (hovf : s.ovf = false) (h : s.len < 2) :
    exec .frmVal s = .next (s.notJudged .shortFrame) := by
  simp only [exec, execFrmVal, hovf, Bool.false_eq_true, if_false, if_pos h]
  rfl

/-- `FRM.VAL` on any other frame reads its payload and its trailer and judges them (rule R98). -/
theorem exec_frmVal_of_len {s : State} (hovf : s.ovf = false) (h : 2 ≤ s.len) :
    exec .frmVal s = onOk (s.readBytes 0 (s.len - 2)) fun payload => onOk (s.readByte (s.len - 2)) fun t0 =>
      onOk (s.readByte (s.len - 2 + 1)) fun t1 => judgeTrailer s (crcRaw payload) t0 t1 := by
  simp only [exec, execFrmVal, hovf, Bool.false_eq_true, if_false, if_neg h.not_gt]

/-- What `FRM.VAL` reads is the frame, so that it answers only where the frame can be read. -/
theorem frame_of_payload_and_trailer {s : State} {payload : List Byte} {t0 t1 : Byte} (hlen : 2 ≤ s.len)
    (hp : s.readBytes 0 (s.len - 2) = .ok payload) (h0 : s.readByte (s.len - 2) = .ok t0)
    (h1 : s.readByte (s.len - 2 + 1) = .ok t1) : s.frame = .ok (payload ++ [t0, t1]) := by
  obtain ⟨hl, hb⟩ := State.readBytes_eq_ok.1 hp
  refine State.frame_eq_ok.2 ⟨by simp [hl]; omega, fun k hk => ?_⟩
  obtain hlt | rfl | rfl : k < s.len - 2 ∨ k = s.len - 2 ∨ k = s.len - 2 + 1 := by omega
  · rw [List.getD_append _ _ _ _ (hl ▸ hlt)]
    simpa using hb k hlt
  · rw [List.getD_append_right _ _ _ _ hl.le, hl, Nat.sub_self]
    exact h0
  · rw [List.getD_append_right _ _ _ _ (hl ▸ Nat.le_succ _), hl, Nat.add_sub_cancel_left]
    exact h1

/-- `FRM.VAL` judges the frame as the pure check of rule R96 does. -/
theorem exec_frmVal_of_frame {s : State} {F : List Byte} (hovf : s.ovf = false) (hlen : 2 ≤ s.len)
    (hF : s.frame = .ok F) : exec .frmVal s = .next (s.judged F) := by
  have hl : F.length = s.len := State.frame_length hF
  rw [exec_frmVal_of_len hovf hlen, State.readBytes_take hF (Nat.sub_le _ _),
    State.frame_byte hF (by omega : s.len - 2 < s.len), State.frame_byte hF (by omega : s.len - 2 + 1 < s.len)]
  simp only [onOk_ok, judgeTrailer_eq, State.judged, trailerOk, crc16, hl,
    show s.len - 2 + 1 = s.len - 1 by omega, Bool.decide_and, Bool.and_eq_true, decide_eq_true_eq]

/-- `FRM.DEC` on a frame that is not validated (rule R101). -/
theorem exec_frmDec_of_not_crcOk {s : State} (h : s.crcOk = false) :
    exec .frmDec s = .next (s.notDecoded false .notValidated) := if_pos h

/-- `FRM.DEC` on a frame shorter than a reply (rule R102). -/
theorem exec_frmDec_of_short {s : State} (hok : s.crcOk = true) (h : s.len < 25) :
    exec .frmDec s = .next (s.notDecoded false .shortFrame) := by
  simp only [exec, execFrmDec, hok, Bool.true_eq_false, if_false, if_pos h]
  rfl

/-- `FRM.DEC` on any other frame reads the fields and judges them (rules R101 and R105). -/
theorem exec_frmDec_of_len {s : State} (hok : s.crcOk = true) (h : 25 ≤ s.len) :
    exec .frmDec s = onOk s.readFields fun r =>
      .next (if accepted s.zeroPowerGuard r then s.decoded r
        else s.notDecoded (decide (r.powr = 0#32)) .badValue) := by
  simp only [exec, execFrmDec, hok, Bool.true_eq_false, if_false, if_neg h.not_gt]
  refine congrArg (onOk s.readFields) (funext fun r => ?_)
  rw [judgeFields_eq, State.setDivZ_divZ, Bool.or_false]
  rfl

/-! ### Every command -/

/-- All that `FRM.VAL` can do when it answers. -/
theorem effect_of_exec_frmVal {s t : State} (h : exec .frmVal s = .next t) : Effect s .frmVal t := by
  cases hovf : s.ovf with
  | true =>
    obtain rfl := Host.Outcome.next.inj ((exec_frmVal_of_ovf hovf).symm.trans h)
    exact .valOverflow hovf
  | false =>
    obtain hshort | hlen := Nat.lt_or_ge s.len 2
    · obtain rfl := Host.Outcome.next.inj ((exec_frmVal_of_short hovf hshort).symm.trans h)
      exact .valShort hovf hshort
    · have hreads := h
      rw [exec_frmVal_of_len hovf hlen] at hreads
      obtain ⟨payload, hp, hreads⟩ := onOk_eq_next.1 hreads
      obtain ⟨t0, h0, hreads⟩ := onOk_eq_next.1 hreads
      obtain ⟨t1, h1, -⟩ := onOk_eq_next.1 hreads
      have hF := frame_of_payload_and_trailer hlen hp h0 h1
      obtain rfl := Host.Outcome.next.inj ((exec_frmVal_of_frame hovf hlen hF).symm.trans h)
      exact .judged hovf hlen hF

/-- All that `FRM.DEC` can do when it answers. -/
theorem effect_of_exec_frmDec {s t : State} (h : exec .frmDec s = .next t) : Effect s .frmDec t := by
  cases hok : s.crcOk with
  | false =>
    obtain rfl := Host.Outcome.next.inj ((exec_frmDec_of_not_crcOk hok).symm.trans h)
    exact .decNotValidated hok
  | true =>
    obtain hshort | hlen := Nat.lt_or_ge s.len 25
    · obtain rfl := Host.Outcome.next.inj ((exec_frmDec_of_short hok hshort).symm.trans h)
      exact .decShort hok hshort
    · rw [exec_frmDec_of_len hok hlen] at h
      obtain ⟨r, hr, h⟩ := onOk_eq_next.1 h
      obtain rfl := Host.Outcome.next.inj h
      cases hacc : accepted s.zeroPowerGuard r with
      | true => exact .decoded hok hlen hr hacc
      | false => exact .decRejected hok hlen hr hacc

/-- All that a command can do when it answers. -/
theorem effect_of_exec {i : Instr} {s t : State} (h : exec i s = .next t) : Effect s i t := by
  have responds (hi : onlyResponds i = true) : Effect s i t := by
    obtain ⟨r, hr⟩ := exec_of_onlyResponds hi s
    obtain rfl := Host.Outcome.next.inj (hr.symm.trans h)
    exact .responds hi r
  cases i with
  | crcInit =>
    obtain rfl := Host.Outcome.next.inj h
    exact .crcInit
  | crcUpd b =>
    obtain rfl := Host.Outcome.next.inj h
    exact .crcUpd b
  | crcFin =>
    obtain rfl := Host.Outcome.next.inj h
    exact .crcFin
  | tbl k | qry k | rd sel => exact responds rfl
  | frmClr =>
    obtain rfl := Host.Outcome.next.inj h
    exact .cleared
  | frmPush b =>
    obtain ⟨hfull, rfl⟩ | ⟨hroom, rfl⟩ := exec_frmPush_cases h
    · exact .pushOverflow b hfull
    · exact .pushed b hroom
  | frmSfx =>
    obtain ⟨hfull, rfl⟩ | ⟨hovf, hroom, F, hF, rfl⟩ := exec_frmSfx_cases h
    · exact .sealOverflow hfull
    · exact .sealed hovf hroom hF
  | frmVal => exact effect_of_exec_frmVal h
  | frmDec => exact effect_of_exec_frmDec h

end Sys2Proof.Machine
end

section
/-! SUPPORT. The invariant of the reachable states: where it follows from the frame and the flags, and that every command
keeps it. -/

namespace Sys2Proof.Machine

/-! ### The invariant from the frame and the flags -/

/-- What the invariant says of the flags, where the frame in the buffer is `F` (rule R13). -/
structure State.FlagsFit (s : State) (F : List Byte) : Prop where
  /-- `CRCOK = 1` only with a matching trailer. -/
  validated : s.crcOk = true → s.ovf = false ∧ 2 ≤ s.len ∧ trailerOk F = true
  /-- `RVALID = 1` only with the accepted decoding of a validated frame. -/
  reading : s.rValid = true → s.crcOk = true ∧ s.divZ = false ∧ 25 ≤ s.len ∧ s.res = fieldsOf s.swapEn F ∧
    accepted s.zeroPowerGuard s.res = true
  /-- `OVF = 1` only with no room for a trailer. -/
  truncated : s.ovf = true → s.frameCap ≤ s.len + 1

/-- With the frame withdrawn, the flags fit whatever is in the buffer. -/
theorem State.FlagsFit.of_withdrawn {s : State} {F : List Byte} (hok : s.crcOk = false) (hrv : s.rValid = false)
    (htr : s.ovf = true → s.frameCap ≤ s.len + 1) : s.FlagsFit F where
  validated h := absurd (hok.symm.trans h) Bool.false_ne_true
  reading h := absurd (hrv.symm.trans h) Bool.false_ne_true
  truncated := htr

/-- A state with a frame in a canonical buffer keeps the invariant where the flags fit that frame. -/
theorem State.FlagsFit.inv {s : State} {F : List Byte} (hfit : s.FlagsFit F) (hF : s.frame = .ok F)
    (hwf : Memory.wf s.buf) (hinside : ∀ c ∈ s.buf, c.1 < s.frameCap) (hcap : 25 ≤ s.frameCap)
    (hlen : s.len ≤ s.frameCap) : s.Inv where
  bufCanonical := hwf
  bufInside := hinside
  capAtLeast25 := hcap
  lenInside := hlen
  frameWritten _ hk := ⟨_, State.frame_byte hF hk⟩
  validated hok :=
    have ⟨hovf, h2, htrailer⟩ := hfit.validated hok
    ⟨hovf, h2, F, hF, htrailer⟩
  reading hrv :=
    have ⟨hok, hdivZ, h25, hres, hacc⟩ := hfit.reading hrv
    ⟨hok, hdivZ, h25, F, hF, hres, hacc⟩
  truncated := hfit.truncated

/-- Where the invariant holds there is a frame. -/
theorem State.Inv.exists_frame {s : State} (h : s.Inv) : ∃ F, s.frame = .ok F :=
  State.readBytes_answers fun k _ hk => h.frameWritten k (by omega)

/-- Where the invariant holds the flags fit the frame. -/
theorem State.Inv.flagsFit {s : State} {F : List Byte} (h : s.Inv) (hF : s.frame = .ok F) : s.FlagsFit F where
  validated hok := by
    obtain ⟨hovf, h2, G, hG, htrailer⟩ := h.validated hok
    obtain rfl : F = G := Except.ok.inj (hF.symm.trans hG)
    exact ⟨hovf, h2, htrailer⟩
  reading hrv := by
    obtain ⟨hok, hdivZ, h25, G, hG, hres, hacc⟩ := h.reading hrv
    obtain rfl : F = G := Except.ok.inj (hF.symm.trans hG)
    exact ⟨hok, hdivZ, h25, hres, hacc⟩
  truncated := h.truncated

/-- Where the buffer stays as it is, the invariant is a matter of the flags. -/
theorem State.Inv.of_same_buffer {s t : State} {F : List Byte} (h : s.Inv) (hF : s.frame = .ok F)
    (hbuf : t.buf = s.buf) (hcap : t.frameCap = s.frameCap) (hlen : t.len = s.len) (hfit : t.FlagsFit F) : t.Inv := by
  refine hfit.inv (State.frame_ok_of_same_buffer hF hbuf hcap hlen) ?_ ?_ ?_ ?_
  · exact hbuf ▸ h.bufCanonical
  · rw [hbuf, hcap]
    exact h.bufInside
  · exact hcap ▸ h.capAtLeast25
  · rw [hlen, hcap]
    exact h.lenInside

/-! ### The invariant after a command -/

/-- The invariant does not speak of the checksum registers and the ports. -/
theorem State.Inv.with_ports {s : State} (h : s.Inv) (c co : Half) (ws : List Cmd) (r : Option Response) :
    ({ s with crc := c, crcOut := co, cmds := ws, out := r } : State).Inv := by
  obtain ⟨F, hF⟩ := h.exists_frame
  have hfit := h.flagsFit hF
  exact h.of_same_buffer hF rfl rfl rfl ⟨hfit.validated, hfit.reading, hfit.truncated⟩

/-- A cleared frame keeps the invariant. -/
theorem State.Inv.cleared {s : State} (h : s.Inv) : s.cleared.Inv := by
  have hfit : s.cleared.FlagsFit [] := .of_withdrawn rfl rfl nofun
  exact hfit.inv (State.frame_of_len_zero rfl) h.bufCanonical h.bufInside h.capAtLeast25 (Nat.zero_le _)

/-- A frame that could not grow keeps the invariant. -/
theorem State.Inv.overflowed {s : State} (h : s.Inv) (hfull : s.frameCap ≤ s.len + 1) (d : Word) :
    (s.overflowed d).Inv := by
  obtain ⟨F, hF⟩ := h.exists_frame
  exact h.of_same_buffer hF rfl rfl rfl (.of_withdrawn rfl rfl fun _ => hfull)

/-- A pushed byte keeps the invariant. -/
theorem State.Inv.pushed {s : State} (h : s.Inv) (hroom : s.len < s.frameCap) (b : Byte) : (s.pushed b).Inv := by
  obtain ⟨F, hF⟩ := h.exists_frame
  have hfit : (s.pushed b).FlagsFit (F ++ [b]) :=
    .of_withdrawn rfl rfl fun hovf => (h.truncated hovf).trans (Nat.le_succ _)
  refine hfit.inv (State.frame_pushed hF hroom b) (memInsert_wf h.bufCanonical _ _) (fun c hc => ?_)
    h.capAtLeast25 hroom
  obtain rfl | hold := mem_memInsert hc
  · exact hroom
  · exact h.bufInside c hold

/-- The two bytes of the trailer, pushed, keep the invariant. -/
theorem State.Inv.sealedWith {s : State} (h : s.Inv) (hroom : s.len + 2 ≤ s.frameCap) (F : List Byte) :
    (s.sealedWith F).Inv := by
  have hfirst := h.pushed (Nat.lt_of_lt_of_le (by omega) hroom) (highByte (crc16 F))
  exact (hfirst.pushed hroom (lowByte (crc16 F))).with_ports _ _ _ _

/-- A readable Reading says that there is a frame with a trailer, and that it is not truncated. -/
theorem State.Inv.frame_of_rValid {s : State} (h : s.Inv) (hrv : s.rValid = true) : s.ovf = false ∧ 2 ≤ s.len := by
  obtain ⟨hok, -⟩ := h.reading hrv
  obtain ⟨hovf, hlen, -⟩ := h.validated hok
  exact ⟨hovf, hlen⟩

/-- Where there is no frame to judge, no Reading is readable, and the invariant stays. -/
theorem State.Inv.notJudged {s : State} (h : s.Inv) (hno : s.ovf = true ∨ s.len < 2) (st : Status) :
    (s.notJudged st).Inv := by
  obtain ⟨F, hF⟩ := h.exists_frame
  have hrv : s.rValid = false := by
    refine Bool.eq_false_iff.2 fun hrv => ?_
    obtain ⟨hovf, hlen⟩ := h.frame_of_rValid hrv
    simp [hovf, hlen.not_gt] at hno
  exact h.of_same_buffer hF rfl rfl rfl (.of_withdrawn rfl hrv h.truncated)

/-- A judged frame keeps the invariant: while a Reading is readable the trailer matches again. -/
theorem State.Inv.judged {s : State} {F : List Byte} (h : s.Inv) (hF : s.frame = .ok F) (hovf : s.ovf = false)
    (hlen : 2 ≤ s.len) : (s.judged F).Inv := by
  have hfit := h.flagsFit hF
  refine h.of_same_buffer hF rfl rfl rfl ⟨fun hok => ⟨hovf, hlen, hok⟩, fun hrv => ?_, hfit.truncated⟩
  obtain ⟨hok, hread⟩ := hfit.reading hrv
  obtain ⟨-, -, htrailer⟩ := hfit.validated hok
  exact ⟨htrailer, hread⟩

/-- A failing decode withdraws the Reading and keeps the invariant. -/
theorem State.Inv.notDecoded {s : State} (h : s.Inv) (divZ : Bool) (st : Status) : (s.notDecoded divZ st).Inv := by
  obtain ⟨F, hF⟩ := h.exists_frame
  have hfit := h.flagsFit hF
  exact h.of_same_buffer hF rfl rfl rfl ⟨hfit.validated, nofun, hfit.truncated⟩

/-- A successful decode leaves the accepted decoding of the frame, and keeps the invariant. -/
theorem State.Inv.decoded {s : State} {r : Results} (h : s.Inv) (hok : s.crcOk = true) (hlen : 25 ≤ s.len)
    (hr : s.readFields = .ok r) (hacc : accepted s.zeroPowerGuard r = true) : (s.decoded r).Inv := by
  obtain ⟨F, hF⟩ := h.exists_frame
  have hfit := h.flagsFit hF
  have hfields := State.readFields_of_frame hF (by omega)
  obtain rfl : r = fieldsOf s.swapEn F := Except.ok.inj (hr.symm.trans hfields)
  exact h.of_same_buffer hF rfl rfl rfl
    ⟨hfit.validated, fun _ => ⟨hok, rfl, hlen, rfl, hacc⟩, hfit.truncated⟩

/-- Every command keeps the invariant (rules R13 and R15). -/
theorem State.Inv.exec {i : Instr} {s t : State} (h : s.Inv) (hexec : Machine.exec i s = .next t) : t.Inv := by
  cases effect_of_exec hexec with
  | crcInit | crcUpd b | crcFin | responds hi r => exact h.with_ports _ _ _ _
  | cleared => exact h.cleared
  | pushOverflow b hfull => exact h.overflowed (by omega) _
  | pushed b hroom => exact h.pushed hroom b
  | sealOverflow hfull => exact h.overflowed (hfull.elim h.truncated (by omega)) _
  | sealed hovf hroom hF => exact h.sealedWith hroom _
  | valOverflow hovf => exact h.notJudged (.inl hovf) _
  | valShort hovf hshort => exact h.notJudged (.inr hshort) _
  | judged hovf hlen hF => exact h.judged hF hovf hlen
  | decNotValidated hok => exact h.notDecoded _ _
  | decShort hok hshort => exact h.notDecoded _ _
  | decRejected hok hlen hr hacc => exact h.notDecoded _ _
  | decoded hok hlen hr hacc => exact h.decoded hok hlen hr hacc

/-- Every step keeps the invariant. -/
theorem State.Inv.step {s t : State} (h : s.Inv) (hstep : Machine.step s = .next t) : t.Inv := by
  obtain ⟨-, rfl⟩ | ⟨w, ws, -, -, rfl⟩ | ⟨w, ws, i, -, -, hexec⟩ := step_cases hstep
  · exact h.with_ports _ _ _ _
  · exact h.with_ports _ _ _ _
  · exact (h.with_ports _ _ ws _).exec hexec

/-- The invariant holds after reset, however the straps are wired (rule R19). -/
theorem State.inv_resetWith (sw zp : Bool) {cap : Nat} (hcap : 25 ≤ cap) : (State.resetWith sw zp cap).Inv := by
  have hfit : (State.resetWith sw zp cap).FlagsFit [] := .of_withdrawn rfl rfl nofun
  exact hfit.inv (State.frame_of_len_zero rfl) List.Pairwise.nil nofun hcap (Nat.zero_le _)

/-! ### A readable Reading -/

/-- What makes a Reading, as its two cases (rules R105 and R106). -/
theorem accepted_eq_true_iff {guard : Bool} {r : Results} :
    accepted guard r = true ↔ (r.powr = 0#32 ∧ guard = true) ∨ (r.powr ≠ 0#32 ∧
      500 * r.powr.toNat ≤ r.curr.toNat * r.volt.toNat ∧ r.curr.toNat * r.volt.toNat ≤ 1500 * r.powr.toNat) := by
  unfold accepted
  split_ifs with hp <;> simp [hp]

/-- The bounds of rule R105 on the raw values, as the power law on the quantities themselves (rule R108). -/
theorem Results.power_law_of_bounds {r : Results} (hlo : 500 * r.powr.toNat ≤ r.curr.toNat * r.volt.toNat)
    (hhi : r.curr.toNat * r.volt.toNat ≤ 1500 * r.powr.toNat) :
    |r.power - r.current * r.voltage| ≤ r.power / 2 := by
  have hlo' : (500 * r.powr.toNat : ℚ) ≤ r.curr.toNat * r.volt.toNat := by exact_mod_cast hlo
  have hhi' : (r.curr.toNat * r.volt.toNat : ℚ) ≤ 1500 * r.powr.toNat := by exact_mod_cast hhi
  have hdiff : r.power - r.current * r.voltage =
      (1000 * r.powr.toNat - r.curr.toNat * r.volt.toNat) / 10000 := by
    simp only [Results.power, Results.current, Results.voltage, Config.scaleTenth, Config.scaleThousandth]
    push_cast
    ring
  have hhalf : r.power / 2 = 500 * r.powr.toNat / 10000 := by
    simp only [Results.power, Config.scaleTenth]
    push_cast
    ring
  rw [hdiff, hhalf, abs_le]
  constructor <;> linarith

/-- A raw power of 0 is a power of 0. -/
theorem Results.power_eq_zero {r : Results} (hp : r.powr = 0#32) : r.power = 0 := by
  simp [Results.power, hp]

/-- Any other raw power is a positive power. -/
theorem Results.power_pos {r : Results} (hp : r.powr ≠ 0#32) : 0 < r.power := by
  have hraw : 0 < r.powr.toNat := Nat.pos_of_ne_zero fun h => hp (BitVec.eq_of_toNat_eq h)
  simp only [Results.power, Config.scaleTenth]
  positivity

/-- An accepted Reading obeys the power law within one half of the power, or has power 0 under the guard. -/
theorem power_law_of_accepted {guard : Bool} {r : Results} (h : accepted guard r = true) :
    (r.power = 0 ∧ guard = true) ∨ (0 < r.power ∧ |r.power - r.current * r.voltage| ≤ r.power / 2) := by
  obtain ⟨hp, hguard⟩ | ⟨hp, hlo, hhi⟩ := accepted_eq_true_iff.1 h
  · exact .inl ⟨Results.power_eq_zero hp, hguard⟩
  · exact .inr ⟨Results.power_pos hp, Results.power_law_of_bounds hlo hhi⟩

end Sys2Proof.Machine
end

section
/-! SUPPORT. Which commands write each flag and each piece of state, read off what a command can do. -/

namespace Sys2Proof.Machine

/-- The commands that write `LEN`, and with it withdraw the frame (10_state.md section 1). -/
theorem writesLen_eq_true_iff {i : Instr} :
    writesLen i = true ↔ i = .frmClr ∨ (∃ b, i = .frmPush b) ∨ i = .frmSfx := by
  cases i <;> simp [writesLen]

variable {i : Instr} {s t : State}

/-! ### The flags (10_state.md rule R13) -/

/-- The commands that write `LEN` always withdraw the frame. -/
theorem exec_withdraws (hi : writesLen i = true) (h : exec i s = .next t) : t.crcOk = false ∧ t.rValid = false := by
  cases effect_of_exec h with
  | responds honly r => cases i <;> nomatch honly, hi
  | cleared | pushOverflow b hfull | pushed b hroom | sealOverflow hfull | sealed hovf hroom hF => exact ⟨rfl, rfl⟩
  | _ => nomatch hi

/-- `CRCOK` stays but under the commands that withdraw the frame and under `FRM.VAL`. -/
theorem exec_crcOk_cases (h : exec i s = .next t) : t.crcOk = s.crcOk ∨ writesLen i = true ∨ i = .frmVal := by
  cases effect_of_exec h with
  | cleared | pushOverflow b hfull | pushed b hroom | sealOverflow hfull | sealed hovf hroom hF =>
    exact .inr (.inl rfl)
  | valOverflow hovf | valShort hovf hshort | judged hovf hlen hF => exact .inr (.inr rfl)
  | _ => exact .inl rfl

/-- `RVALID` stays but under the commands that withdraw the frame and under `FRM.DEC`. -/
theorem exec_rValid_cases (h : exec i s = .next t) : t.rValid = s.rValid ∨ writesLen i = true ∨ i = .frmDec := by
  cases effect_of_exec h with
  | cleared | pushOverflow b hfull | pushed b hroom | sealOverflow hfull | sealed hovf hroom hF =>
    exact .inr (.inl rfl)
  | decNotValidated hok | decShort hok hshort | decRejected hok hlen hr hacc | decoded hok hlen hr hacc =>
    exact .inr (.inr rfl)
  | _ => exact .inl rfl

/-- `OVF` stays, or `FRM.CLR` clears it, or a command sets it that found no room. -/
theorem exec_ovf_cases (h : exec i s = .next t) :
    t.ovf = s.ovf ∨ (i = .frmClr ∧ t.ovf = false) ∨
      (t.ovf = true ∧ ((∃ b, i = .frmPush b ∧ s.len = s.frameCap) ∨
        (i = .frmSfx ∧ (s.ovf = true ∨ s.len + 2 > s.frameCap)))) := by
  cases effect_of_exec h with
  | cleared => exact .inr (.inl ⟨rfl, rfl⟩)
  | pushOverflow b hfull => exact .inr (.inr ⟨rfl, .inl ⟨b, rfl, hfull⟩⟩)
  | sealOverflow hfull => exact .inr (.inr ⟨rfl, .inr ⟨rfl, hfull⟩⟩)
  | _ => exact .inl rfl

/-- `DIVZ` stays but under `FRM.DEC`. -/
theorem exec_divZ_cases (h : exec i s = .next t) : t.divZ = s.divZ ∨ i = .frmDec := by
  cases effect_of_exec h with
  | decNotValidated hok | decShort hok hshort | decRejected hok hlen hr hacc | decoded hok hlen hr hacc =>
    exact .inr rfl
  | _ => exact .inl rfl

/-- `FRM.DEC` sets `DIVZ` only where the guard strap does not accept a power of 0 (rule R106). -/
theorem exec_frmDec_divZ (h : exec .frmDec s = .next t) (hdivZ : t.divZ = true) : s.zeroPowerGuard = false := by
  cases effect_of_exec h with
  | responds honly r => nomatch honly
  | decRejected hok hlen hr hacc =>
    have hp := of_decide_eq_true hdivZ
    simpa [accepted, hp] using hacc
  | decNotValidated hok | decShort hok hshort | decoded hok hlen hr hacc => nomatch hdivZ

/-- After `FRM.VAL` the flag `CRCOK` says whether it responded `OK`. -/
theorem exec_frmVal_crcOk_iff (h : exec .frmVal s = .next t) : t.crcOk = true ↔ t.respondedOk := by
  cases effect_of_exec h with
  | responds honly r => nomatch honly
  | valOverflow hovf | valShort hovf hshort => simp [State.respondedOk, State.notJudged]
  | @judged F hovf hlen hF =>
    cases hok : trailerOk F <;> simp [State.respondedOk, State.judged, hok]

/-- After `FRM.DEC` the flag `RVALID` says whether it responded `OK`. -/
theorem exec_frmDec_rValid_iff (h : exec .frmDec s = .next t) : t.rValid = true ↔ t.respondedOk := by
  cases effect_of_exec h with
  | responds honly r => nomatch honly
  | decNotValidated hok | decShort hok hshort | decRejected hok hlen hr hacc =>
    simp [State.respondedOk, State.notDecoded]
  | decoded hok hlen hr hacc => simp [State.respondedOk, State.decoded]

/-! ### The registers, the buffer, the straps and the port (10_state.md section 1) -/

/-- Only its writers change `CRC`. -/
theorem exec_crc_of_not_writesCrc (hi : writesCrc i = false) (h : exec i s = .next t) : t.crc = s.crc := by
  cases effect_of_exec h with
  | crcInit | crcUpd b | sealed hovf hroom hF | judged hovf hlen hF => nomatch hi
  | _ => rfl

/-- Only its writers change `CRCOUT`. -/
theorem exec_crcOut_of_not_writesCrcOut (hi : writesCrcOut i = false) (h : exec i s = .next t) :
    t.crcOut = s.crcOut := by
  cases effect_of_exec h with
  | crcFin | sealed hovf hroom hF | judged hovf hlen hF => nomatch hi
  | _ => rfl

/-- Only its writers change `LEN`. -/
theorem exec_len_of_not_writesLen (hi : writesLen i = false) (h : exec i s = .next t) : t.len = s.len := by
  rw [exec_frame_of_not_writesLen hi h]

/-- A command stores bytes at `LEN` and beyond only, and no byte at all where it does not write `BUF`. -/
theorem exec_readByte (h : exec i s = .next t) {a : Nat} (ha : writesBuf i = false ∨ a < s.len) :
    t.readByte a = s.readByte a := by
  cases effect_of_exec h with
  | pushed b hroom =>
    have hlt : a < s.len := ha.resolve_left nofun
    exact State.readByte_pushed_other hlt.ne b
  | @sealed F hovf hroom hF =>
    have hlt : a < s.len := ha.resolve_left nofun
    have hsecond := State.readByte_pushed_other (s := s.pushed (highByte (crc16 F)))
      (hlt.trans (Nat.lt_succ_self _)).ne (lowByte (crc16 F))
    exact hsecond.trans (State.readByte_pushed_other hlt.ne _)
  | _ => exact State.readByte_of_same_buffer rfl rfl a

/-- The result registers change by a successful `FRM.DEC` only (rule R11). -/
theorem exec_res (hi : ¬ (i = .frmDec ∧ t.respondedOk)) (h : exec i s = .next t) : t.res = s.res := by
  cases effect_of_exec h with
  | decoded hok hlen hr hacc => exact absurd ⟨rfl, _, rfl⟩ hi
  | _ => rfl

/-- `TBL`, `QRY` and `RD` change nothing but the response (rule R35). -/
theorem exec_eq_of_onlyResponds (hi : onlyResponds i = true) (h : exec i s = .next t) :
    t = { s with out := t.out } := by
  obtain ⟨r, hr⟩ := exec_of_onlyResponds hi s
  obtain rfl := Host.Outcome.next.inj (hr.symm.trans h)
  rfl

/-- No command writes a strap or takes a word off the port (rules R14 and R41). -/
theorem exec_straps_cmds (h : exec i s = .next t) :
    t.swapEn = s.swapEn ∧ t.zeroPowerGuard = s.zeroPowerGuard ∧ t.frameCap = s.frameCap ∧ t.cmds = s.cmds := by
  cases effect_of_exec h <;> exact ⟨rfl, rfl, rfl, rfl⟩

end Sys2Proof.Machine
end

section
/-! SUPPORT. Two states a host cannot tell apart: what keeps them so, and that every command answers them alike. -/

namespace Sys2Proof.Machine

variable {s t : State}

/-! ### What keeps two states indistinguishable -/

/-- The same words left on the port. -/
theorem State.SameVisible.with_cmds (h : s.SameVisible t) (ws : List Cmd) :
    ({ s with cmds := ws } : State).SameVisible { t with cmds := ws } :=
  { h with cmds := rfl }

/-- The same response. -/
theorem State.SameVisible.with_out (h : s.SameVisible t) (r : Option Response) :
    ({ s with out := r } : State).SameVisible { t with out := r } :=
  { h with out := rfl }

/-- Nothing is below a `LEN` of 0. -/
theorem State.SameVisible.cleared (h : s.SameVisible t) : s.cleared.SameVisible t.cleared :=
  { h with
    len := rfl, crcOk := rfl, rValid := rfl, ovf := rfl, out := rfl, res := nofun
    bytes := fun k hk => absurd hk (Nat.not_lt_zero k) }

/-- The frame withdrawn for want of room. -/
theorem State.SameVisible.overflowed (h : s.SameVisible t) {d d' : Word} (hd : d = d') :
    (s.overflowed d).SameVisible (t.overflowed d') := by
  subst hd
  exact { h with crcOk := rfl, rValid := rfl, ovf := rfl, out := rfl, res := nofun }

/-- A byte pushed to both is the same byte below the new `LEN`; what lay there before no longer matters. -/
theorem State.SameVisible.pushed (h : s.SameVisible t) (hroom : s.len < s.frameCap) (b : Byte) :
    (s.pushed b).SameVisible (t.pushed b) := by
  have hroom' : t.len < t.frameCap := h.len ▸ h.frameCap ▸ hroom
  refine { h with
    len := congrArg (· + 1) h.len, crcOk := rfl, rValid := rfl, out := ?_, res := nofun, bytes := fun k hk => ?_ }
  · simp only [State.pushed, h.len]
  · obtain hold | rfl := Nat.lt_succ_iff_lt_or_eq.1 hk
    · rw [State.readByte_pushed_other hold.ne, State.readByte_pushed_other (h.len ▸ hold.ne), h.bytes k hold]
    · rw [State.readByte_pushed_len hroom, h.len, State.readByte_pushed_len hroom']

/-- The same trailer pushed to both. -/
theorem State.SameVisible.sealedWith (h : s.SameVisible t) (hroom : s.len + 2 ≤ s.frameCap) (F : List Byte) :
    (s.sealedWith F).SameVisible (t.sealedWith F) := by
  have hfirst := h.pushed (Nat.lt_of_lt_of_le (by omega) hroom) (highByte (crc16 F))
  exact { hfirst.pushed hroom (lowByte (crc16 F)) with crc := rfl, crcOut := rfl, out := rfl }

/-- No frame to judge in either. -/
theorem State.SameVisible.notJudged (h : s.SameVisible t) (st : Status) :
    (s.notJudged st).SameVisible (t.notJudged st) :=
  { h with crcOk := rfl, out := rfl }

/-- A decode that succeeds writes the same values over whatever the result registers held. -/
theorem State.SameVisible.decoded (h : s.SameVisible t) (r : Results) : (s.decoded r).SameVisible (t.decoded r) :=
  { h with rValid := rfl, divZ := rfl, out := rfl, res := fun _ => rfl }

/-- The Reading withdrawn in both. -/
theorem State.SameVisible.notDecoded (h : s.SameVisible t) (divZ : Bool) (st : Status) :
    (s.notDecoded divZ st).SameVisible (t.notDecoded divZ st) :=
  { h with rValid := rfl, divZ := rfl, out := rfl, res := nofun }

/-- The frame is visible. -/
theorem State.SameVisible.frame (h : s.SameVisible t) : s.frame = t.frame := State.frame_congr h.len h.bytes

/-- The word `FLAGS` is visible. -/
theorem State.SameVisible.flagsWord (h : s.SameVisible t) : s.flagsWord = t.flagsWord := by
  simp only [State.flagsWord, h.divZ, h.ovf, h.rValid, h.crcOk]

/-! ### Outcomes a host cannot tell apart -/

/-- Commands that go on from the same answer of an access, each time indistinguishably, are indistinguishable. -/
theorem sameOutcome_onOk {α : Type} {e e' : Except Fault α} {k k' : α → Host.Outcome State Fault Refusal}
    (he : e = e') (hk : ∀ a, sameOutcome (k a) (k' a)) : sameOutcome (onOk e k) (onOk e' k') := by
  subst he
  cases e with
  | ok a => exact hk a
  | error f => rfl

/-- A command that ends with the same response. -/
theorem State.SameVisible.respond (h : s.SameVisible t) (st : Status) (d : Word) :
    sameOutcome (s.respond st d) (t.respond st d) := h.with_out _

/-! ### Every command -/

/-- `FRM.PUSH` reads `LEN` and the capacity alone. -/
theorem State.SameVisible.exec_frmPush (h : s.SameVisible t) (b : Byte) :
    sameOutcome (exec (.frmPush b) s) (exec (.frmPush b) t) := by
  have hlen := h.len
  have hcap := h.frameCap
  obtain hroom | hfull | hbeyond := lt_trichotomy s.len s.frameCap
  · rw [exec_frmPush_of_lt hroom, exec_frmPush_of_lt (by omega)]
    exact h.pushed hroom b
  · rw [exec_frmPush_of_full hfull, exec_frmPush_of_full (by omega)]
    exact h.overflowed (congrArg lengthWord hlen)
  · rw [exec_frmPush_of_gt hbeyond, exec_frmPush_of_gt (by omega)]
    exact congrArg Fault.bufOutOfRange hlen

/-- `FRM.SFX` reads the frame alone. -/
theorem State.SameVisible.exec_frmSfx (h : s.SameVisible t) : sameOutcome (exec .frmSfx s) (exec .frmSfx t) := by
  by_cases hfull : s.ovf = true ∨ s.len + 2 > s.frameCap
  · have hfull' : t.ovf = true ∨ t.len + 2 > t.frameCap := by rwa [← h.ovf, ← h.len, ← h.frameCap]
    rw [exec_frmSfx_of_full hfull, exec_frmSfx_of_full hfull']
    exact h.overflowed rfl
  · obtain ⟨hovf, hroom⟩ : s.ovf = false ∧ s.len + 2 ≤ s.frameCap := by simpa using hfull
    rw [exec_frmSfx_of_room hovf hroom, exec_frmSfx_of_room (h.ovf ▸ hovf) (h.len ▸ h.frameCap ▸ hroom)]
    exact sameOutcome_onOk h.frame fun F => h.sealedWith hroom F

/-- `FRM.VAL` reads bytes below `LEN` alone. -/
theorem State.SameVisible.exec_frmVal (h : s.SameVisible t) : sameOutcome (exec .frmVal s) (exec .frmVal t) := by
  cases hovf : s.ovf with
  | true =>
    rw [exec_frmVal_of_ovf hovf, exec_frmVal_of_ovf (h.ovf ▸ hovf)]
    exact h.notJudged _
  | false =>
    obtain hshort | hlen := Nat.lt_or_ge s.len 2
    · rw [exec_frmVal_of_short hovf hshort, exec_frmVal_of_short (h.ovf ▸ hovf) (h.len ▸ hshort)]
      exact h.notJudged _
    · rw [exec_frmVal_of_len hovf hlen, exec_frmVal_of_len (h.ovf ▸ hovf) (h.len ▸ hlen), ← h.len]
      refine sameOutcome_onOk (State.readBytes_congr fun k _ hk => h.bytes k (by omega)) fun payload => ?_
      refine sameOutcome_onOk (h.bytes _ (by omega)) fun t0 => ?_
      refine sameOutcome_onOk (h.bytes _ (by omega)) fun t1 => ?_
      rw [judgeTrailer_eq, judgeTrailer_eq]
      exact { h with crc := rfl, crcOut := rfl, crcOk := rfl, out := rfl }

/-- `FRM.DEC` reads bytes below `LEN` alone, and result registers not at all. -/
theorem State.SameVisible.exec_frmDec (h : s.SameVisible t) : sameOutcome (exec .frmDec s) (exec .frmDec t) := by
  cases hok : s.crcOk with
  | false =>
    rw [exec_frmDec_of_not_crcOk hok, exec_frmDec_of_not_crcOk (h.crcOk ▸ hok)]
    exact h.notDecoded _ _
  | true =>
    obtain hshort | hlen := Nat.lt_or_ge s.len 25
    · rw [exec_frmDec_of_short hok hshort, exec_frmDec_of_short (h.crcOk ▸ hok) (h.len ▸ hshort)]
      exact h.notDecoded _ _
    · rw [exec_frmDec_of_len hok hlen, exec_frmDec_of_len (h.crcOk ▸ hok) (h.len ▸ hlen)]
      refine sameOutcome_onOk (State.readFields_congr h.swapEn fun k _ hk => h.bytes k (by omega)) fun r => ?_
      rw [← h.zeroPowerGuard]
      split_ifs
      · exact h.decoded r
      · exact h.notDecoded _ _

/-- What `RD` selects: a result register, which both states guard with `RVALID`, or the same visible value. -/
theorem State.SameVisible.selected (h : s.SameVisible t) (sel : Byte) :
    (∃ v w, s.selected sel = some (true, v) ∧ t.selected sel = some (true, w) ∧ (s.rValid = true → v = w)) ∨
      s.selected sel = t.selected sel := by
  unfold State.selected
  split
  case h_5 | h_6 | h_7 | h_8 | h_9 | h_10 | h_11 => exact .inl ⟨_, _, rfl, rfl, fun hrv => by rw [h.res hrv]⟩
  all_goals simp [h.crc, h.crcOut, h.len, h.flagsWord]

/-- `RD` responds no result register while `RVALID = 0`. -/
theorem State.SameVisible.exec_rd (h : s.SameVisible t) (sel : Byte) :
    sameOutcome (exec (.rd sel) s) (exec (.rd sel) t) := by
  simp only [exec, execRd]
  obtain ⟨v, w, hs, ht, hvw⟩ | hsel := h.selected sel
  · rw [hs, ht]
    simp only [← h.rValid, Bool.true_and]
    cases hrv : s.rValid with
    | true =>
      obtain rfl := hvw hrv
      exact h.respond _ _
    | false => exact h.respond _ _
  · rw [hsel]
    cases t.selected sel with
    | none => exact h.respond _ _
    | some p =>
      simp only [h.rValid]
      split_ifs <;> exact h.respond _ _

/-- No command tells two such states apart. -/
theorem State.SameVisible.exec (h : s.SameVisible t) (i : Instr) :
    sameOutcome (Machine.exec i s) (Machine.exec i t) := by
  cases i with
  | crcInit => exact { h with crc := rfl, out := rfl }
  | crcUpd b =>
    simp only [Machine.exec, execCrcUpd, h.crc]
    exact { h with crc := rfl, out := rfl }
  | crcFin =>
    simp only [Machine.exec, execCrcFin, h.crc]
    exact { h with crcOut := rfl, out := rfl }
  | tbl k => exact h.respond _ _
  | qry k =>
    simp only [Machine.exec, execQry]
    split_ifs <;> exact h.respond _ _
  | frmClr => exact h.cleared
  | frmPush b => exact h.exec_frmPush b
  | frmSfx => exact h.exec_frmSfx
  | frmVal => exact h.exec_frmVal
  | frmDec => exact h.exec_frmDec
  | rd sel => exact h.exec_rd sel

/-- No step tells two such states apart. -/
theorem State.SameVisible.step (h : s.SameVisible t) : sameOutcome (Machine.step s) (Machine.step t) := by
  cases hc : s.cmds with
  | nil =>
    rw [step_nil hc, step_nil (h.cmds ▸ hc)]
    exact h.with_out none
  | cons w ws =>
    rw [step_cons hc, step_cons (h.cmds ▸ hc)]
    cases decode w with
    | error why => exact (h.with_cmds ws).with_out _
    | ok i => exact (h.with_cmds ws).exec i

end Sys2Proof.Machine
end

section
/-! The statements of 10_state.md. -/

namespace Sys2Proof.Proofs

open Sys2Proof.Machine

/-- Settles O34: by the values the reset state is written with. -/
theorem resetValues : Obligations.ResetValues :=
  ⟨fun _ _ _ => ⟨rfl, rfl, rfl, rfl, rfl, rfl, rfl, rfl, rfl, rfl⟩, rfl⟩

/-- Settles O37: the buffer is empty and the flags are withdrawn. -/
theorem invariantAtReset : Obligations.InvariantAtReset := fun sw zp _ hcap => State.inv_resetWith sw zp hcap

/-- Settles O38: case by case over all that a command can do. -/
theorem stepKeepsInvariant : Obligations.StepKeepsInvariant := fun _ _ hinv hstep => hinv.step hstep

/-- Settles O33: by the invariant a readable Reading is accepted, and the bounds of its acceptance are the power law. -/
theorem readableReadingIsPlausible : Obligations.ReadableReadingIsPlausible := by
  intro s hinv hrv
  obtain ⟨-, -, -, F, -, -, hacc⟩ := hinv.reading hrv
  exact power_law_of_accepted hacc

/-- Settles O41: flag by flag, from what a command can do to it. -/
theorem flagWriters : Obligations.FlagWriters := by
  intro i s t h
  have hwithdraws := fun hi => exec_withdraws (writesLen_eq_true_iff.2 hi) h
  have hval : i = .frmVal → (t.crcOk = true ↔ t.respondedOk) := by
    rintro rfl
    exact exec_frmVal_crcOk_iff h
  have hdec : i = .frmDec → (t.rValid = true ↔ t.respondedOk) := by
    rintro rfl
    exact exec_frmDec_rValid_iff h
  refine ⟨fun h0 h1 => ?crcOkSet, fun h0 h1 => ?rValidSet, fun h0 h1 => ?ovfSet, fun h0 h1 => ?divZSet, hwithdraws,
    hval, hdec, fun h1 h0 => ?crcOkCleared, fun h1 h0 => ?rValidCleared, fun h1 h0 => ?ovfCleared,
    fun h1 h0 => ?divZCleared⟩
  case crcOkSet =>
    obtain hsame | hi | hi := exec_crcOk_cases h
    · simp [h0, h1] at hsame
    · simp [exec_withdraws hi h] at h1
    · exact ⟨hi, (hval hi).1 h1⟩
  case rValidSet =>
    obtain hsame | hi | hi := exec_rValid_cases h
    · simp [h0, h1] at hsame
    · simp [exec_withdraws hi h] at h1
    · exact ⟨hi, (hdec hi).1 h1⟩
  case ovfSet =>
    obtain hsame | ⟨-, hclr⟩ | ⟨-, hpush | ⟨hsfx, hfull⟩⟩ := exec_ovf_cases h
    · simp [h0, h1] at hsame
    · simp [h1] at hclr
    · exact .inl hpush
    · exact .inr ⟨hsfx, hfull.resolve_left (by simp [h0])⟩
  case divZSet =>
    obtain hsame | rfl := exec_divZ_cases h
    · simp [h0, h1] at hsame
    · exact ⟨rfl, exec_frmDec_divZ h h1⟩
  case crcOkCleared =>
    obtain hsame | hi | hi := exec_crcOk_cases h
    · simp [h0, h1] at hsame
    · have hwriter := writesLen_eq_true_iff.1 hi
      tauto
    · simp [hi]
  case rValidCleared =>
    obtain hsame | hi | hi := exec_rValid_cases h
    · simp [h0, h1] at hsame
    · have hwriter := writesLen_eq_true_iff.1 hi
      tauto
    · simp [hi]
  case ovfCleared =>
    obtain hsame | ⟨hclr, -⟩ | ⟨hset, -⟩ := exec_ovf_cases h
    · simp [h0, h1] at hsame
    · exact hclr
    · simp [h0] at hset
  case divZCleared =>
    obtain hsame | hi := exec_divZ_cases h
    · simp [h0, h1] at hsame
    · exact hi

/-- Settles O42: field by field, from what a command can do to it. -/
theorem stateWriters : Obligations.StateWriters := by
  intro i s t h
  exact ⟨fun hi => exec_crc_of_not_writesCrc hi h, fun hi => exec_crcOut_of_not_writesCrcOut hi h,
    fun hi => exec_len_of_not_writesLen hi h, fun hi _ => exec_readByte h (.inl hi),
    fun _ ha => exec_readByte h (.inr ha), fun hi => exec_res hi h, fun hi => exec_eq_of_onlyResponds hi h,
    exec_straps_cmds h⟩

/-- Settles O40: command by command, each reads visible state alone and leaves the two states visibly alike. -/
theorem hiddenStateIsUnobservable : Obligations.HiddenStateIsUnobservable := fun _ _ hsame => hsame.step

end Sys2Proof.Proofs
end

section
/-! SUPPORT. Where the invariant holds every command answers: each access it makes lies in the frame or, for a write, in
the room that the command has checked for. -/

namespace Sys2Proof.Machine

/-- A command that answers leaves a response (rule R126). -/
theorem exec_out {i : Instr} {s t : State} (h : exec i s = .next t) : ∃ r, t.out = some r := by
  cases effect_of_exec h <;> exact ⟨_, rfl⟩

/-! ### The commands that access the buffer -/

/-- `FRM.PUSH` finds the buffer full or writes inside it. -/
theorem State.Inv.exec_frmPush_answers {s : State} (h : s.Inv) (b : Byte) :
    ∃ t, Machine.exec (.frmPush b) s = .next t := by
  obtain hroom | hfull := h.lenInside.lt_or_eq
  · exact ⟨_, exec_frmPush_of_lt hroom b⟩
  · exact ⟨_, exec_frmPush_of_full hfull b⟩

/-- `FRM.SFX` finds no room, or reads the frame and writes two bytes inside the buffer. -/
theorem State.Inv.exec_frmSfx_answers {s : State} (h : s.Inv) : ∃ t, Machine.exec .frmSfx s = .next t := by
  by_cases hfull : s.ovf = true ∨ s.len + 2 > s.frameCap
  · exact ⟨_, exec_frmSfx_of_full hfull⟩
  · obtain ⟨hovf, hroom⟩ := not_or.1 hfull
    obtain ⟨F, hF⟩ := h.exists_frame
    exact ⟨s.sealedWith F, by rw [exec_frmSfx_of_room (Bool.eq_false_iff.2 hovf) (not_lt.1 hroom), hF, onOk_ok]⟩

/-- `FRM.VAL` has nothing to judge, or reads the frame. -/
theorem State.Inv.exec_frmVal_answers {s : State} (h : s.Inv) : ∃ t, Machine.exec .frmVal s = .next t := by
  cases hovf : s.ovf with
  | true => exact ⟨_, exec_frmVal_of_ovf hovf⟩
  | false =>
    obtain hshort | hlen := Nat.lt_or_ge s.len 2
    · exact ⟨_, exec_frmVal_of_short hovf hshort⟩
    · obtain ⟨F, hF⟩ := h.exists_frame
      exact ⟨_, exec_frmVal_of_frame hovf hlen hF⟩

/-- `FRM.DEC` has nothing to decode, or reads fields that end before the 25 bytes of the frame do. -/
theorem State.Inv.exec_frmDec_answers {s : State} (h : s.Inv) : ∃ t, Machine.exec .frmDec s = .next t := by
  cases hok : s.crcOk with
  | false => exact ⟨_, exec_frmDec_of_not_crcOk hok⟩
  | true =>
    obtain hshort | hlen := Nat.lt_or_ge s.len 25
    · exact ⟨_, exec_frmDec_of_short hok hshort⟩
    · obtain ⟨F, hF⟩ := h.exists_frame
      rw [exec_frmDec_of_len hok hlen, State.readFields_of_frame hF (by omega), onOk_ok]
      exact ⟨_, rfl⟩

/-! ### Every command and every step -/

/-- No access to the buffer stops a command (rule R36). -/
theorem State.Inv.exec_answers {s : State} (h : s.Inv) (i : Instr) : ∃ t, Machine.exec i s = .next t := by
  have responds (hi : onlyResponds i = true) : ∃ t, Machine.exec i s = .next t :=
    have ⟨_, hr⟩ := exec_of_onlyResponds hi s
    ⟨_, hr⟩
  cases i with
  | crcInit | crcUpd b | crcFin | frmClr => exact ⟨_, rfl⟩
  | tbl k | qry k | rd sel => exact responds rfl
  | frmPush b => exact h.exec_frmPush_answers b
  | frmSfx => exact h.exec_frmSfx_answers
  | frmVal => exact h.exec_frmVal_answers
  | frmDec => exact h.exec_frmDec_answers

/-- Every command gives a response (rules R36 and R126). -/
theorem State.Inv.exec_responds {s : State} (h : s.Inv) (i : Instr) :
    ∃ t r, Machine.exec i s = .next t ∧ t.out = some r := by
  obtain ⟨t, ht⟩ := h.exec_answers i
  obtain ⟨r, hr⟩ := exec_out ht
  exact ⟨t, r, ht, hr⟩

/-- Every word on the port gives a response: an illegal one without running a command, a legal one by its command. -/
theorem State.Inv.step_responds {s : State} (h : s.Inv) (hc : s.cmds ≠ []) :
    ∃ t r, Machine.step s = .next t ∧ t.out = some r := by
  obtain ⟨w, ws, hw⟩ := List.exists_cons_of_ne_nil hc
  rw [step_cons hw]
  cases decode w with
  | error why => exact ⟨_, _, rfl, rfl⟩
  | ok i => exact (h.with_ports _ _ ws _).exec_responds i

end Sys2Proof.Machine
end

section
/-! SUPPORT. `FRM.VAL` and `FRM.DEC` write nothing they read, so that a second one finds the case of the first. -/

namespace Sys2Proof.Machine

/-- Two states with the same buffer, capacity and `SWAP_EN` hold the same fields. -/
theorem State.readFields_of_same_buffer {s t : State} (hb : t.buf = s.buf) (hc : t.frameCap = s.frameCap)
    (hs : t.swapEn = s.swapEn) : t.readFields = s.readFields :=
  State.readFields_congr hs fun k _ _ => State.readByte_of_same_buffer hb hc k

/-- Judging a frame leaves it. -/
@[simp] theorem State.judged_frame (s : State) (F : List Byte) : (s.judged F).frame = s.frame :=
  State.frame_of_same_buffer rfl rfl rfl

/-- A failing decode leaves the fields in the buffer. -/
@[simp] theorem State.notDecoded_readFields (s : State) (divZ : Bool) (st : Status) :
    (s.notDecoded divZ st).readFields = s.readFields :=
  State.readFields_of_same_buffer rfl rfl rfl

/-- A successful decode leaves the fields in the buffer. -/
@[simp] theorem State.decoded_readFields (s : State) (r : Results) : (s.decoded r).readFields = s.readFields :=
  State.readFields_of_same_buffer rfl rfl rfl

/-- `FRM.DEC` of fields that make a Reading (rules R101 and R103). -/
theorem exec_frmDec_of_accepted {s : State} {r : Results} (hok : s.crcOk = true) (hlen : 25 ≤ s.len)
    (hr : s.readFields = .ok r) (hacc : accepted s.zeroPowerGuard r = true) :
    exec .frmDec s = .next (s.decoded r) := by
  rw [exec_frmDec_of_len hok hlen, hr, onOk_ok, if_pos hacc]

/-- `FRM.DEC` of fields that are no Reading (rules R105 and R106). -/
theorem exec_frmDec_of_rejected {s : State} {r : Results} (hok : s.crcOk = true) (hlen : 25 ≤ s.len)
    (hr : s.readFields = .ok r) (hacc : accepted s.zeroPowerGuard r = false) :
    exec .frmDec s = .next (s.notDecoded (decide (r.powr = 0#32)) .badValue) := by
  rw [exec_frmDec_of_len hok hlen, hr, onOk_ok, hacc, if_neg Bool.false_ne_true]

/-- `FRM.VAL` writes `CRC`, `CRCOUT` and `CRCOK` and reads none of them, so that a second one changes nothing. -/
theorem exec_frmVal_repeat {s t : State} (h : exec .frmVal s = .next t) : exec .frmVal t = .next t := by
  cases effect_of_exec h with
  | responds hi => nomatch hi
  | valOverflow hovf => exact exec_frmVal_of_ovf (s := s.notJudged _) hovf
  | valShort hovf hshort => exact exec_frmVal_of_short (s := s.notJudged _) hovf hshort
  | judged hovf hlen hF => exact exec_frmVal_of_frame (s := s.judged _) hovf hlen ((s.judged_frame _).trans hF)

/-- `FRM.DEC` writes `RVALID`, `DIVZ` and the result registers and reads none of them, so that a second one changes
nothing. -/
theorem exec_frmDec_repeat {s t : State} (h : exec .frmDec s = .next t) : exec .frmDec t = .next t := by
  cases effect_of_exec h with
  | responds hi => nomatch hi
  | decNotValidated hok => exact exec_frmDec_of_not_crcOk (s := s.notDecoded _ _) hok
  | decShort hok hshort => exact exec_frmDec_of_short (s := s.notDecoded _ _) hok hshort
  | decRejected hok hlen hr hacc =>
    exact exec_frmDec_of_rejected (s := s.notDecoded _ _) hok hlen ((s.notDecoded_readFields _ _).trans hr) hacc
  | decoded hok hlen hr hacc =>
    exact exec_frmDec_of_accepted (s := s.decoded _) hok hlen ((s.decoded_readFields _).trans hr) hacc

end Sys2Proof.Machine
end

section
/-! The statements of 20_memory.md. -/

namespace Sys2Proof.Proofs

open Sys2Proof.Machine

/-- Settles O39: command by command, since under the invariant there is a frame to read and room wherever one writes. -/
theorem everyWordIsAnswered : Obligations.EveryWordIsAnswered :=
  ⟨fun _ hinv hc => hinv.step_responds hc, fun i _ hinv => hinv.exec_responds i⟩

/-- Settles O32: from the state each way to end leaves, the command ends the same way. -/
theorem validateAndDecodeRepeat : Obligations.ValidateAndDecodeRepeat :=
  ⟨fun _ _ h => exec_frmVal_repeat h, fun _ _ h => exec_frmDec_repeat h⟩

end Sys2Proof.Proofs
end

section
/-! SUPPORT. The encoder undoes the decoder, and the legal words of an opcode: those whose operand is below a bound. -/

namespace Sys2Proof.Machine

/-! ### The fields of a word -/

/-- A word is its two fields, `op` over `arg` (rule R55). -/
theorem append_fields (w : Cmd) : opField w ++ argField w = w := by
  ext k hk
  simp only [opField, argField, BitVec.getElem_append, BitVec.getElem_extractLsb']
  split_ifs with hlow
  · rw [Nat.zero_add, BitVec.getLsbD_eq_getElem]
  · rw [Nat.add_sub_cancel' (not_lt.1 hlow), BitVec.getLsbD_eq_getElem]

/-- The number a word is, from its two fields (rule R55). -/
theorem toNat_eq_fields (w : Cmd) : w.toNat = (opField w).toNat * 256 + (argField w).toNat := by
  simp only [opField, argField, BitVec.extractLsb'_toNat, Nat.shiftRight_eq_div_pow]
  omega

/-- The field `op` as a number. -/
theorem opField_toNat (w : Cmd) : (opField w).toNat = w.toNat / 256 := by
  have harg : (argField w).toNat < 256 := (argField w).isLt
  have hw := toNat_eq_fields w
  omega

/-- The field `arg` as a number. -/
theorem argField_toNat (w : Cmd) : (argField w).toNat = w.toNat % 256 := by
  have harg : (argField w).toNat < 256 := (argField w).isLt
  have hw := toNat_eq_fields w
  omega

/-! ### The encoder undoes the decoder -/

/-- The opcode and the operand of a decoded command are the fields of its word (rules R55 and R56). -/
theorem fields_of_decode {w : Cmd} {i : Instr} (h : decode w = .ok i) :
    opcode i = opField w ∧ operand i = argField w := by
  unfold decode at h
  split at h
  case h_1 hop | h_3 hop | h_6 hop | h_8 hop | h_9 hop | h_10 hop =>
    obtain ⟨harg, rfl⟩ := noOperand_eq_ok.1 h
    exact ⟨BitVec.eq_of_toNat_eq hop.symm, harg.symm⟩
  case h_2 hop | h_4 hop | h_7 hop =>
    obtain rfl := Except.ok.inj h
    exact ⟨BitVec.eq_of_toNat_eq hop.symm, rfl⟩
  case h_5 hop | h_11 hop =>
    split_ifs at h
    obtain rfl := Except.ok.inj h
    exact ⟨BitVec.eq_of_toNat_eq hop.symm, rfl⟩
  case h_12 => nomatch h

/-- A word the decoder accepts is the word of the command it gives (rules R55 and R56). -/
theorem encode_of_decode {w : Cmd} {i : Instr} (h : decode w = .ok i) : encode i = w := by
  obtain ⟨hop, harg⟩ := fields_of_decode h
  rw [encode, hop, harg, append_fields]

/-! ### The legal operands of an opcode -/

/-- How many operands make a legal word with an opcode: the operands below this bound do (rules R57 and R58). -/
def operandBound : Nat → Nat
  | 0x1 | 0x3 | 0x6 | 0x8 | 0x9 | 0xA => 1
  | 0x2 | 0x4 | 0x7 => 256
  | 0x5 => 8
  | 0xB => 11
  | _ => 0

/-- A command without an operand is decoded with `arg` below 1. -/
theorem noOperand_toBool (arg : Byte) (i : Instr) : (noOperand arg i).toBool = decide (arg.toNat < 1) := by
  have harg : arg = 0#8 ↔ arg.toNat < 1 := by rw [← BitVec.toNat_inj, BitVec.toNat_zero, Nat.lt_one_iff]
  unfold noOperand
  split_ifs with h <;> simp [Except.toBool, ← harg, h]

/-- `QRY` has the operands below 8 (rule R57). -/
theorem queryIndexOk_eq (i : Byte) : queryIndexOk i = decide (i.toNat < 8) :=
  decide_eq_decide.2 Nat.lt_succ_iff.symm

/-- `RD` has the operands below 11 (rule R57). -/
theorem selectorOk_eq (sel : Byte) : selectorOk sel = decide (sel.toNat < 11) :=
  decide_eq_decide.2 Nat.lt_succ_iff.symm

/-- A command with a check on its operand is decoded where the check passes. -/
theorem checked_toBool (ok : Bool) (i : Instr) (why : Illegal) :
    (if ok then .ok i else .error why : Except Illegal Instr).toBool = ok := by
  cases ok <;> rfl

/-- The decoder accepts the words whose operand is below the bound of their opcode. -/
theorem decode_toBool (w : Cmd) :
    (decode w).toBool = decide ((argField w).toNat < operandBound (opField w).toNat) := by
  unfold decode
  split
  case h_1 hop | h_3 hop | h_6 hop | h_8 hop | h_9 hop | h_10 hop =>
    rw [hop]
    exact noOperand_toBool _ _
  case h_2 hop | h_4 hop | h_7 hop =>
    rw [hop]
    exact (decide_eq_true (argField w).isLt).symm
  case h_5 hop =>
    rw [hop, checked_toBool, queryIndexOk_eq]
    rfl
  case h_11 hop =>
    rw [hop, checked_toBool, selectorOk_eq]
    rfl
  case h_12 => simp_all [operandBound, Except.toBool]

/-- The decoder rejects the other words. -/
theorem decode_error_iff {w : Cmd} :
    (∃ why, decode w = .error why) ↔ operandBound (opField w).toNat ≤ (argField w).toNat := by
  have hbool := decode_toBool w
  cases hd : decode w with
  | error why => simpa [hd, Except.toBool] using hbool
  | ok i => simpa [hd, Except.toBool] using hbool

/-- Rule R58 lists the words whose operand is not below the bound of their opcode. -/
theorem isIllegalWord_iff {w : Cmd} :
    isIllegalWord w ↔ operandBound (opField w).toNat ≤ (argField w).toNat := by
  have harg : (argField w).toNat < 256 := (argField w).isLt
  have hop : (opField w).toNat < 16 := (opField w).isLt
  simp only [isIllegalWord, ← opField_toNat, ← argField_toNat]
  generalize (opField w).toNat = op at hop
  generalize (argField w).toNat = arg at harg
  simp only [List.mem_cons, List.not_mem_nil, or_false, operandBound]
  split
  case h_12 =>
    simp only [imp_false] at *
    omega
  all_goals omega

/-- The decoder rejects exactly the words that rule R58 lists. -/
theorem decode_error_iff_isIllegalWord {w : Cmd} : (∃ why, decode w = .error why) ↔ isIllegalWord w :=
  decode_error_iff.trans isIllegalWord_iff.symm

/-- A step on an illegal word answers `IllegalCommand` and changes nothing but the ports (rule R58). -/
theorem step_of_isIllegalWord {s : State} {w : Cmd} {ws : List Cmd} (hc : s.cmds = w :: ws) (hw : isIllegalWord w) :
    step s = .next { s with cmds := ws, out := some { st := .illegalCommand, dout := 0#32 } } := by
  obtain ⟨why, hd⟩ := decode_error_iff_isIllegalWord.2 hw
  rw [step_cons hc, hd]

/-! ### How many words are legal -/

/-- No opcode has more operands than a byte has values. -/
theorem operandBound_le (op : Nat) : operandBound op ≤ 256 := by
  unfold operandBound
  split <;> decide

/-- The number of legal words of an opcode is its bound. -/
theorem legalWithOpcode_eq {op : Nat} (hop : op < 16) : legalWithOpcode op = operandBound op := by
  have hbelow : ∀ arg ∈ List.range 256,
      (decode (BitVec.ofNat 12 (op * 256 + arg))).toBool = decide (arg < operandBound op) := by
    intro arg hmem
    have harg := List.mem_range.1 hmem
    have hword : (BitVec.ofNat 12 (op * 256 + arg)).toNat = op * 256 + arg :=
      Nat.mod_eq_of_lt (by omega)
    rw [decode_toBool, opField_toNat, argField_toNat, hword, show (op * 256 + arg) / 256 = op by omega,
      show (op * 256 + arg) % 256 = arg by omega]
  rw [legalWithOpcode, List.filter_congr hbelow, ← List.Ico.zero_bot, List.Ico.filter_lt, List.Ico.length,
    Nat.sub_zero, min_eq_right (operandBound_le op)]

/-- The numbers of legal words, opcode by opcode (rule R58). -/
theorem map_legalWithOpcode : (List.range 16).map legalWithOpcode = (List.range 16).map operandBound :=
  List.map_congr_left fun _ hop => legalWithOpcode_eq (List.mem_range.1 hop)

end Sys2Proof.Machine
end

section
/-! SUPPORT. The line of a command, read back by the assembler word by word (rule R60). -/

namespace Sys2Proof.Machine

/-! ### The words of a line -/

/-- A character that stands inside a word: it neither separates words nor starts a comment. -/
def asmPlain (c : Char) : Bool := !asmIsSpace c && decide (c ≠ ';')

/-- A word of a line: plain characters, one or more. -/
def IsWord (w : List Char) : Prop := w ≠ [] ∧ ∀ c ∈ w, asmPlain c = true

/-- The check on a word that is written out. -/
theorem isWord_of_all {w : List Char} (hne : w ≠ []) (h : w.all asmPlain = true) : IsWord w :=
  ⟨hne, List.all_eq_true.1 h⟩

/-- The two things a plain character is not. -/
theorem asmPlain_iff {c : Char} : asmPlain c = true ↔ asmIsSpace c = false ∧ c ≠ ';' := by
  simp [asmPlain]

/-- A line without a semicolon holds no comment. -/
theorem asmStripComment_eq_self {line : List Char} (h : ∀ c ∈ line, c ≠ ';') : asmStripComment line = line :=
  List.takeWhile_eq_self_iff.2 fun c hc => decide_eq_true (h c hc)

/-- Plain characters are added to the word being read. -/
theorem asmWordsFrom_append {w : List Char} (h : ∀ c ∈ w, asmPlain c = true) (acc rest : List Char) :
    asmWordsFrom acc (w ++ rest) = asmWordsFrom (w.reverse ++ acc) rest := by
  induction w generalizing acc with
  | nil => rfl
  | cons c w ih =>
    obtain ⟨hc, hw⟩ := List.forall_mem_cons.1 h
    simp [asmWordsFrom, (asmPlain_iff.1 hc).1, ih hw]

/-- The end of the line ends the word. -/
theorem asmWordsFrom_word {w : List Char} (h : IsWord w) : asmWordsFrom [] w = [w] := by
  obtain ⟨hne, hplain⟩ := h
  have hread := asmWordsFrom_append hplain [] []
  simpa [asmWordsFrom, hne] using hread

/-- A space ends the word. -/
theorem asmWordsFrom_word_space {w : List Char} (h : IsWord w) (rest : List Char) :
    asmWordsFrom [] (w ++ ' ' :: rest) = w :: asmWordsFrom [] rest := by
  obtain ⟨hne, hplain⟩ := h
  rw [asmWordsFrom_append hplain]
  simp [asmWordsFrom, asmIsSpace, hne]

/-- A line of one word. -/
theorem asmWords_word {m : List Char} (hm : IsWord m) : asmWords m = [m] := by
  have hstrip := asmStripComment_eq_self fun c hc => (asmPlain_iff.1 (hm.2 c hc)).2
  rw [asmWords, hstrip, asmWordsFrom_word hm]

/-- A line of two words with a space between them. -/
theorem asmWords_pair {m w : List Char} (hm : IsWord m) (hw : IsWord w) : asmWords (m ++ ' ' :: w) = [m, w] := by
  have hstrip : asmStripComment (m ++ ' ' :: w) = m ++ ' ' :: w := by
    refine asmStripComment_eq_self fun c hc => ?_
    obtain hc | hc := List.mem_append.1 hc
    · exact (asmPlain_iff.1 (hm.2 c hc)).2
    · obtain rfl | hc := List.mem_cons.1 hc
      · decide
      · exact (asmPlain_iff.1 (hw.2 c hc)).2
  rw [asmWords, hstrip, asmWordsFrom_word_space hm, asmWordsFrom_word hw]

/-! ### The operand -/

/-- A hexadecimal digit stands inside a word, and the assembler reads back its value. -/
theorem hexDigit_read (d : BitVec 4) : asmPlain (hexDigit d) = true ∧ asmDigit 16 (hexDigit d) = some d.toNat := by
  revert d
  decide

/-- The operand of a command as a word of its line. -/
def hexOperand (b : Byte) : List Char :=
  ['0', 'x', hexDigit (b.extractLsb' 4 4), hexDigit (b.extractLsb' 0 4)]

/-- The line shows the operand after a space. -/
theorem operandText_eq (b : Byte) : operandText b = ' ' :: hexOperand b := rfl

/-- The operand is one word. -/
theorem isWord_hexOperand (b : Byte) : IsWord (hexOperand b) := by
  have hplain (d : BitVec 4) := (hexDigit_read d).1
  have hlead : asmPlain '0' = true ∧ asmPlain 'x' = true := by decide
  exact isWord_of_all (List.cons_ne_nil _ _) (by simp only [hexOperand, List.all_cons, hlead, hplain]; rfl)

/-- The assembler reads back the number that the line shows (rule R60). -/
theorem asmNumber_hexOperand (b : Byte) : asmNumber (hexOperand b) = some b := by
  have hvalue (d : BitVec 4) := (hexDigit_read d).2
  have hsum : (b.extractLsb' 4 4).toNat * 16 + (b.extractLsb' 0 4).toNat = b.toNat := by
    simp only [BitVec.extractLsb'_toNat, Nat.shiftRight_eq_div_pow]
    omega
  have hb : b.toNat < 256 := b.isLt
  have hdigits : asmDigits 16 0 [hexDigit (b.extractLsb' 4 4), hexDigit (b.extractLsb' 0 4)] = some b.toNat := by
    simp only [asmDigits, hvalue, Option.bind_some, Nat.zero_mul, Nat.zero_add, hsum]
  simp [asmNumber, hexOperand, hdigits, hb]

/-- No selector name starts with a digit. -/
theorem asmSelectors_lookup_hexOperand (b : Byte) : asmSelectors.lookup (hexOperand b) = none := rfl

/-- For `RD` too the operand is read as a number. -/
theorem asmOperand_hexOperand (op : BitVec 4) (b : Byte) : asmOperand op (hexOperand b) = some b := by
  simp [asmOperand, asmSelectors_lookup_hexOperand, asmNumber_hexOperand]

/-! ### The command -/

/-- A mnemonic is one word. -/
theorem isWord_mnemonic (i : Instr) : IsWord (mnemonic i) := by
  cases i <;> exact isWord_of_all (List.cons_ne_nil _ _) rfl

/-- The line of a command shows its operand exactly where the table of mnemonics asks for one (rules R56 and R60). -/
theorem printLine_cases (i : Instr) :
    (asmMnemonics.lookup (mnemonic i) = some (opcode i, false) ∧ printLine i = mnemonic i ∧ operand i = 0#8) ∨
    (asmMnemonics.lookup (mnemonic i) = some (opcode i, true) ∧
      printLine i = mnemonic i ++ operandText (operand i)) := by
  cases i with
  | crcInit | crcFin | frmClr | frmSfx | frmVal | frmDec => exact .inl ⟨rfl, rfl, rfl⟩
  | crcUpd b | tbl b | qry b | frmPush b | rd b => exact .inr ⟨rfl, rfl⟩

/-- An opcode and an operand that make the word of a legal command assemble to the command. -/
theorem asmCommand_of_operand {i : Instr} (h : i.wellFormed = true) {takesOperand : Bool} {operands : List (List Char)}
    (harg : (takesOperand = false ∧ operands = [] ∧ operand i = 0#8) ∨ operands = [hexOperand (operand i)]) :
    asmCommand (opcode i) takesOperand operands = .ok [i] := by
  have hd : decode (opcode i ++ operand i) = .ok i := decode_encode h
  obtain ⟨rfl, rfl, hzero⟩ | rfl := harg
  · rw [hzero] at hd
    simp [asmCommand, hd]
  · simp [asmCommand, asmOperand_hexOperand, hd]

/-- The line of a legal command assembles to the command (rule R60). -/
theorem assembleLine_printLine {i : Instr} (h : i.wellFormed = true) : assembleLine (printLine i) = .ok [i] := by
  have hm := isWord_mnemonic i
  obtain ⟨hlookup, hline, hzero⟩ | ⟨hlookup, hline⟩ := printLine_cases i
  · rw [assembleLine, hline, asmWords_word hm]
    simp [hlookup, asmCommand_of_operand h (.inl ⟨rfl, rfl, hzero⟩)]
  · rw [assembleLine, hline, operandText_eq, asmWords_pair hm (isWord_hexOperand _)]
    simp [hlookup, asmCommand_of_operand h (.inr rfl)]

/-- A program of one line is the words of that line. -/
theorem assemble_singleton {line : List Char} {is : List Instr} (h : assembleLine line = .ok is) :
    assemble [line] = .ok (is.map encode) := by
  simp [assemble, h]

end Sys2Proof.Machine
end

section
/-! SUPPORT. Loading a frame and validating it: the run of `FRM.CHECK`. -/

namespace Sys2Proof.Machine

/-- A step on the word of `FRM.VAL` where the frame can be judged (rule R98). -/
theorem step_frmVal_of_frame {s : State} {F : List Byte} {ws : List Cmd} (hc : s.cmds = encode .frmVal :: ws)
    (hovf : s.ovf = false) (hlen : 2 ≤ s.len) (hF : s.frame = .ok F) :
    step s = .next ((s.setCmds ws).judged F) :=
  (step_encode hc rfl).trans (exec_frmVal_of_frame (s := s.setCmds ws) hovf hlen ((s.setCmds_frame ws).trans hF))

/-- The words of `FRM.CHECK` are those of `FRM.LOAD` and then that of `FRM.VAL` (rule R61). -/
theorem wordsOf_frmCheck (bytes : List Byte) :
    wordsOf (.frmCheck bytes) = wordsOf (.frmLoad bytes) ++ [encode .frmVal] := by
  simp [wordsOf, expand]

/-- The words of `FRM.CHECK bytes`, for 2 to `FRAME_CAP` bytes, load exactly these bytes and judge them. -/
theorem run_frmCheck {s : State} {bytes : List Byte} {ws : List Cmd} (htwo : 2 ≤ bytes.length)
    (hfits : bytes.length ≤ s.frameCap) (hc : s.cmds = wordsOf (.frmCheck bytes) ++ ws) :
    ∃ u : State, Host.Core.run Sys2Proof.core (bytes.length + 2) s = .next ((u.setCmds ws).judged bytes) ∧
      u.frame = .ok bytes ∧ u.len = bytes.length ∧ u.rValid = false := by
  rw [wordsOf_frmCheck, List.append_assoc, List.singleton_append] at hc
  obtain ⟨u, hrun, hu, heq⟩ := run_frmLoad hfits hc
  have hlen : u.len = bytes.length := (State.frame_length hu).symm
  have hovf : u.ovf = false := by rw [heq]
  have hcmds : u.cmds = encode .frmVal :: ws := by rw [heq]
  have hstep := step_frmVal_of_frame hcmds hovf (htwo.trans hlen.ge) hu
  exact ⟨u, (hrun 1).trans ((run_succ hstep 0).trans (run_zero _)), hu, hlen, by rw [heq]⟩

end Sys2Proof.Machine
end

section
/-! The statements of 30_encoding.md. -/

namespace Sys2Proof.Proofs

open Sys2Proof.Machine

/-- Settles O1: the fields of an encoded word are the opcode and the operand, and each opcode has one command. -/
theorem decodeOfEncode : Obligations.DecodeOfEncode := fun _ h => decode_encode h

/-- Settles O2: the decoder reads opcode and operand off the word it is given. -/
theorem decodeAcceptsOnlyEncodings : Obligations.DecodeAcceptsOnlyEncodings :=
  fun _ _ h => ⟨wellFormed_of_decode h, encode_of_decode h⟩

/-- Settles O3: by the bound of the legal operands of each opcode, which both the decoder and rule R58 obey. -/
theorem illegalWords : Obligations.IllegalWords := by
  refine ⟨fun _ => decode_error_iff_isIllegalWord, fun _ _ _ => step_of_isIllegalWord,
    isIllegalWord_iff.2 (Nat.zero_le _), ?_⟩
  rw [map_legalWithOpcode]
  exact ⟨rfl, rfl⟩

/-- Settles O4: the words are few and written out. -/
theorem sampleWordsDecode : Obligations.SampleWordsDecode := by
  unfold Obligations.SampleWordsDecode
  decide

/-- Settles O5: the words of the printed line are the mnemonic and the operand, which the assembler reads back. -/
theorem assembleOfPrint : Obligations.AssembleOfPrint :=
  fun _ h => ⟨assembleLine_printLine h, assemble_singleton (assembleLine_printLine h)⟩

/-- Settles O23: the constant is written out, and its checksum is computed. -/
theorem queryConstant : Obligations.QueryConstant := ⟨rfl, by decide, by decide⟩

/-- Settles O24: by the run of `FRM.LOAD`. -/
theorem loadedFrame : Obligations.LoadedFrame := by
  intro s bytes ws hfits hc
  obtain ⟨t, hrun, hframe, heq⟩ := run_frmLoad hfits hc
  exact ⟨t, (hrun 0).trans (run_zero t), hframe, heq⟩

/-- Settles O25: `FRM.VAL` judges the frame that the run of `FRM.LOAD` leaves. -/
theorem checkedFrame : Obligations.CheckedFrame := by
  intro s bytes ws htwo hfits hc
  obtain ⟨u, hrun, hframe, hlen, hrv⟩ := run_frmCheck htwo hfits hc
  have hjudged : ((u.setCmds ws).judged bytes).frame = .ok bytes := by
    rw [State.judged_frame, State.setCmds_frame, hframe]
  exact ⟨_, hrun, hjudged, rfl, hrv, rfl, by simp [State.judged, hlen]⟩

end Sys2Proof.Proofs
end

section
/-! SUPPORT. The lookup table: the construction of rule R71 is that of rule R70, and it is linear and injective because
its one shift is. -/

namespace Sys2Proof.Machine

/-- The conditional shift that rule R71 applies eight times. -/
def tableShift (r : Half) : Half := if r.getLsbD 0 then (r >>> 1) ^^^ Config.poly else r >>> 1

/-- The conditional shift is linear over XOR: the masks of two values with bit 0 set cancel. -/
theorem tableShift_xor (x y : Half) : tableShift (x ^^^ y) = tableShift x ^^^ tableShift y := by
  unfold tableShift
  rw [BitVec.getLsbD_xor, BitVec.ushiftRight_xor_distrib]
  cases x.getLsbD 0 <;> cases y.getLsbD 0
  case false.false => rfl
  case false.true => exact BitVec.xor_assoc _ _ _
  case true.false =>
    change x >>> 1 ^^^ y >>> 1 ^^^ Config.poly = x >>> 1 ^^^ Config.poly ^^^ y >>> 1
    ac_rfl
  case true.true =>
    calc x >>> 1 ^^^ y >>> 1
        = x >>> 1 ^^^ y >>> 1 ^^^ (Config.poly ^^^ Config.poly) := by rw [BitVec.xor_self, BitVec.xor_zero]
      _ = x >>> 1 ^^^ Config.poly ^^^ (y >>> 1 ^^^ Config.poly) := by ac_rfl

/-- The mask shows in the top bit, so the conditional shift keeps the bit it tests there. -/
theorem tableShift_getLsbD_top (r : Half) : (tableShift r).getLsbD 15 = r.getLsbD 0 := by
  unfold tableShift
  split_ifs with h
  · simp [Config.poly, h]
  · simpa using h

/-- No two values shift to the same: the top bit tells whether the mask was applied, and which bit was dropped. -/
theorem tableShift_injective : Function.Injective tableShift := by
  intro x y h
  have hlow : x.getLsbD 0 = y.getLsbD 0 := by rw [← tableShift_getLsbD_top, h, tableShift_getLsbD_top]
  have hshift : x >>> 1 = y >>> 1 := by
    unfold tableShift at h
    rw [hlow] at h
    split_ifs at h
    · exact (BitVec.xor_left_inj _).1 h
    · exact h
  refine BitVec.eq_of_getLsbD_eq fun i _ => ?_
  cases i with
  | zero => exact hlow
  | succ i =>
    have hbit := congrArg (fun v : Half => v.getLsbD i) hshift
    simpa [Nat.add_comm 1] using hbit

/-- The loop of rule R70 shifts seed and running value apart; the shift of rule R71 shifts their XOR. -/
theorem tableLoop_eq (k : Nat) (seed : Byte) (run : Half) :
    tableLoop k seed run = tableShift^[k] (seed.setWidth 16 ^^^ run) ^^^ (seed.setWidth 16) >>> k := by
  induction k generalizing seed run with
  | zero =>
    simp [tableLoop, BitVec.xor_comm]
  | succ k ih =>
    rw [tableLoop, ih, Function.iterate_succ_apply, BitVec.setWidth_ushiftRight (by decide), ← BitVec.shiftRight_add,
      Nat.add_comm 1 k]
    congr 2
    unfold tableShift
    rw [BitVec.ushiftRight_xor_distrib]
    split_ifs
    · rw [BitVec.xor_assoc]
    · rfl

/-- Rule R71: every entry is eight conditional shifts of its index. -/
theorem tableEntry_eq (n : Byte) : tableEntry n = tableShift^[8] (n.setWidth 16) := by
  have hseed : (n.setWidth 16 : Half) >>> 8 = 0#16 := by
    rw [← BitVec.setWidth_ushiftRight (by decide), BitVec.ushiftRight_eq_zero le_rfl, BitVec.setWidth_zero]
  rw [tableEntry, tableLoop_eq, hseed, BitVec.xor_zero, BitVec.xor_zero]

/-- The table is linear over XOR (rule R71). -/
theorem tableEntry_xor (i j : Byte) : tableEntry (i ^^^ j) = tableEntry i ^^^ tableEntry j := by
  have hshift : Function.Semiconj₂ tableShift (· ^^^ ·) (· ^^^ ·) := tableShift_xor
  rw [tableEntry_eq, tableEntry_eq, tableEntry_eq, BitVec.setWidth_xor]
  exact hshift.iterate 8 _ _

/-- A listing of the table's first entries, and the row of eight that follows. -/
theorem table_append_row {n : Nat} {rows row : List Half}
    (hrows : (List.range n).map (fun k => tableEntry (BitVec.ofNat 8 k)) = rows)
    (hrow : (List.range 8).map (fun k => tableEntry (BitVec.ofNat 8 (n + k))) = row) :
    (List.range (n + 8)).map (fun k => tableEntry (BitVec.ofNat 8 k)) = rows ++ row := by
  rw [List.range_add, List.map_append, List.map_map, hrows]
  exact congrArg (rows ++ ·) hrow

/-- The entries of the table are pairwise different (rule R71). -/
theorem tableEntry_injective : Function.Injective tableEntry := by
  intro i j h
  rw [tableEntry_eq, tableEntry_eq] at h
  have hwide := congrArg (BitVec.setWidth 8) (tableShift_injective.iterate 8 h)
  simpa using hwide

end Sys2Proof.Machine
end

section
/-! SUPPORT. The checksum update byte by byte, and the checksum of a message with its own checksum behind it. -/

namespace Sys2Proof.Machine

/-- Shifting right by 8 clears the high byte. -/
theorem highByte_ushiftRight_8 (v : Half) : highByte (v >>> 8) = 0#8 := by
  rw [highByte, ← BitVec.setWidth_ushiftRight_eq_extractLsb, ← BitVec.shiftRight_add,
    BitVec.ushiftRight_eq_zero (by decide), BitVec.setWidth_zero]

/-- Shifting right by 8 moves the high byte low. -/
theorem lowByte_ushiftRight_8 (v : Half) : lowByte (v >>> 8) = highByte v := by
  rw [highByte, ← BitVec.setWidth_ushiftRight_eq_extractLsb, BitVec.setWidth_eq_extractLsb' (by decide), lowByte]

/-- The high byte of an update is that of the table entry (rule R73). -/
theorem highByte_crcStep (c : Half) (b : Byte) :
    highByte (crcStep c b) = highByte (tableEntry (lowByte (c ^^^ b.setWidth 16))) := by
  have hxor : highByte (crcStep c b) = highByte (c >>> 8) ^^^ _ := BitVec.extractLsb'_xor
  rw [hxor, highByte_ushiftRight_8, BitVec.zero_xor]
  rfl

/-- The low byte of an update is the old high byte XOR the low byte of the table entry (rule R73). -/
theorem lowByte_crcStep (c : Half) (b : Byte) :
    lowByte (crcStep c b) = highByte c ^^^ lowByte (tableEntry (lowByte (c ^^^ b.setWidth 16))) := by
  have hxor : lowByte (crcStep c b) = lowByte (c >>> 8) ^^^ _ := BitVec.extractLsb'_xor
  rw [hxor, lowByte_ushiftRight_8]
  rfl

/-- Continuing a checksum is a fold from it (rule R80 law 2). -/
theorem crcRaw_append (x y : List Byte) : crcRaw (x ++ y) = y.foldl crcStep (crcRaw x) :=
  List.foldl_append

/-- The two bytes of a checksum, low byte first, reduce it to 0 (rule R80 law 3). -/
theorem crcStep_lowByte_highByte (c : Half) : crcStep (crcStep c (lowByte c)) (highByte c) = 0#16 := by
  rw [crcStep_lowByte, ← lowByte_ushiftRight_8, crcStep_lowByte, ← BitVec.shiftRight_add,
    BitVec.ushiftRight_eq_zero (by decide)]

end Sys2Proof.Machine
end

section
/-! SUPPORT. The commands of the CRC engine: their words, what each does, and runs of them. -/

namespace Sys2Proof.Machine

/-! ### The words -/

/-- The number a command's word is (rule R55). -/
theorem encode_toNat (i : Instr) : (encode i).toNat = (opcode i).toNat * 256 + (operand i).toNat := by
  obtain ⟨hop, harg⟩ := Laws.fields_of_append (opcode i) (operand i)
  rw [toNat_eq_fields, encode, hop, harg]

/-- A word with an opcode that takes no operand is illegal with any other `arg` than 0 (rules R55 and R58). -/
theorem decode_error_of_nonzero_arg {op : BitVec 4} (hop : operandBound op.toNat = 1) {a : Byte} (ha : a ≠ 0#8) :
    ∃ why, decode (op ++ a) = .error why := by
  obtain ⟨hopField, hargField⟩ := Laws.fields_of_append op a
  rw [decode_error_iff, hopField, hargField, hop]
  exact Nat.one_le_iff_ne_zero.2 fun hzero => ha (BitVec.eq_of_toNat_eq hzero)

/-! ### One command -/

/-- All that `CRC.INIT` does (rule R76). -/
theorem exec_crcInit (s : State) : exec .crcInit s =
    .next { s with crc := Config.crcInit, out := some { st := .ok, dout := Config.crcInit.setWidth 32 } } := rfl

/-- All that `CRC.UPD` does (rule R77). -/
theorem exec_crcUpd (b : Byte) (s : State) : exec (.crcUpd b) s =
    .next { s with crc := crcStep s.crc b, out := some { st := .ok, dout := (crcStep s.crc b).setWidth 32 } } := rfl

/-- All that `CRC.FIN` does (rule R78). -/
theorem exec_crcFin (s : State) : exec .crcFin s =
    .next { s with crcOut := swap16 s.crc, out := some { st := .ok, dout := (swap16 s.crc).setWidth 32 } } := rfl

/-- All that `TBL` does (rule R79). -/
theorem exec_tbl (i : Byte) (s : State) : exec (.tbl i) s =
    .next { s with out := some { st := .ok, dout := (tableEntry i).setWidth 32 } } := rfl

/-! ### The run of `CRC.MSG` -/

/-- The words of `CRC.UPD` commands fold their bytes into `CRC`; of the rest only the ports change. -/
theorem run_crcUpd_words {s : State} {bytes : List Byte} {ws : List Cmd}
    (hc : s.cmds = (bytes.map Instr.crcUpd).map encode ++ ws) :
    ∃ r, ∀ n, Host.Core.run Sys2Proof.core (bytes.length + n) s =
      Host.Core.run Sys2Proof.core n { s with crc := bytes.foldl crcStep s.crc, cmds := ws, out := r } := by
  induction bytes generalizing s with
  | nil =>
    obtain rfl : s.cmds = ws := hc
    exact ⟨s.out, fun n => by rw [List.length_nil, Nat.zero_add]; rfl⟩
  | cons b bytes ih =>
    have hstep := (step_encode hc rfl).trans (exec_crcUpd b _)
    obtain ⟨r, hrun⟩ := ih (s := { s with crc := crcStep s.crc b, cmds := _, out := _ }) rfl
    refine ⟨r, fun n => ?_⟩
    rw [List.length_cons, Nat.succ_add]
    exact (run_succ hstep _).trans (hrun n)

/-- The words of `CRC.MSG bytes` compute both forms of the checksum of the bytes (rules R61 and R80 law 1). -/
theorem run_crcMsg {s : State} {bytes : List Byte} {ws : List Cmd} (hc : s.cmds = wordsOf (.crcMsg bytes) ++ ws) :
    Host.Core.run Sys2Proof.core (bytes.length + 2) s =
      .next { s with crc := crcRaw bytes, crcOut := crc16 bytes, cmds := ws,
                     out := some { st := .ok, dout := (crc16 bytes).setWidth 32 } } := by
  have hwords : s.cmds = encode .crcInit :: ((bytes.map Instr.crcUpd).map encode ++ encode .crcFin :: ws) := by
    rw [hc]
    simp [wordsOf, expand]
  have hinit := (step_encode hwords rfl).trans (exec_crcInit _)
  obtain ⟨r, hupd⟩ := run_crcUpd_words (s := { s with crc := Config.crcInit, cmds := _, out := _ }) rfl
  have hfin (t : State) (ht : t.cmds = encode .crcFin :: ws) := (step_encode ht rfl).trans (exec_crcFin _)
  calc Host.Core.run Sys2Proof.core (bytes.length + 2) s
      = Host.Core.run Sys2Proof.core (bytes.length + 1) _ := run_succ hinit _
    _ = Host.Core.run Sys2Proof.core 1 _ := hupd 1
    _ = Host.Core.run Sys2Proof.core 0 _ := run_succ (hfin _ rfl) 0

/-! ### Other commands between the updates -/

/-- A sequence of commands that completes: the first does, and the others do from the state it leaves. -/
theorem execAll_cons_eq_next {i : Instr} {is : List Instr} {s t : State} :
    execAll (i :: is) s = .next t ↔ ∃ u, exec i s = .next u ∧ execAll is u = .next t := by
  rw [execAll]
  cases exec i s <;> simp

/-- The bytes of a sequence are those of its first command and then those of the others. -/
theorem updBytes_cons (i : Instr) (is : List Instr) : updBytes (i :: is) = updBytes [i] ++ updBytes is := by
  cases i <;> rfl

/-- A command that does not break a streaming checksum off continues it over the byte it brings, if any (rule R80
law 2). -/
theorem exec_crc_of_not_breaksStream {i : Instr} {s t : State} (hi : breaksStream i = false)
    (h : exec i s = .next t) : t.crc = (updBytes [i]).foldl crcStep s.crc := by
  cases i with
  | crcInit | frmSfx | frmVal => nomatch hi
  | crcUpd b =>
    obtain rfl := Host.Outcome.next.inj h
    rfl
  | _ => exact exec_crc_of_not_writesCrc rfl h

/-- A sequence of commands of which none breaks a streaming checksum off continues it over the bytes of its updates
(rule R80 law 2). -/
theorem execAll_crc_of_not_breaksStream {is : List Instr} {s t : State} (his : ∀ i ∈ is, breaksStream i = false)
    (h : execAll is s = .next t) : t.crc = (updBytes is).foldl crcStep s.crc := by
  induction is generalizing s with
  | nil =>
    obtain rfl := Host.Outcome.next.inj h
    rfl
  | cons i is ih =>
    obtain ⟨hi, his⟩ := List.forall_mem_cons.1 his
    obtain ⟨u, hu, ht⟩ := execAll_cons_eq_next.1 h
    rw [updBytes_cons, List.foldl_append, ← exec_crc_of_not_breaksStream hi hu]
    exact ih his ht

end Sys2Proof.Machine
end

section
/-! The statements of 40_crc_engine.md. -/

namespace Sys2Proof.Proofs

open Sys2Proof.Machine

/-- Settles O8: row by row from the last one down, the eight entries of each computed. -/
theorem tableListing : Obligations.TableListing := by
  unfold Obligations.TableListing
  iterate 31 refine table_append_row ?_ (by decide)
  decide

/-- Settles O9: by the linearity and the injectivity of the one conditional shift. -/
theorem tableLaws : Obligations.TableLaws :=
  ⟨tableEntry_eq, tableEntry_zero, rfl, tableEntry_injective, tableEntry_xor, by decide⟩

/-- Settles O10: by what the command does; its opcode takes no operand. -/
theorem crcInitResult : Obligations.CrcInitResult :=
  ⟨rfl, fun _ => decode_error_of_nonzero_arg rfl, exec_crcInit⟩

/-- Settles O11: the update is the checksum's, whose two bytes come apart. -/
theorem crcUpdResult : Obligations.CrcUpdResult := by
  intro b s
  have hword : (encode (.crcUpd b)).toNat = 0x200 + b.toNat := by simp [encode_toNat, opcode, operand]
  exact ⟨hword, highByte_crcStep s.crc b, lowByte_crcStep s.crc b, exec_crcUpd b s⟩

/-- Settles O12: by what the command does; its opcode takes no operand. -/
theorem crcFinResult : Obligations.CrcFinResult :=
  ⟨rfl, fun _ => decode_error_of_nonzero_arg rfl, exec_crcFin⟩

/-- Settles O13: by what the command does. -/
theorem tblResult : Obligations.TblResult := by
  intro i s
  have hword : (encode (.tbl i)).toNat = 0x400 + i.toNat := by simp [encode_toNat, opcode, operand]
  exact ⟨hword, exec_tbl i s⟩

/-- Settles O14: the checksum is a fold, and a byte equal to its low byte shifts it out. -/
theorem checksumLaws : Obligations.ChecksumLaws :=
  ⟨crcRaw_append, fun x => (crcRaw_append x _).trans (crcStep_lowByte_highByte _), rfl⟩

/-- Settles O15: by the run of `CRC.MSG`. -/
theorem streamingChecksum : Obligations.StreamingChecksum := fun _ _ _ => run_crcMsg

/-- Settles O16: each command continues the checksum over the byte it brings, if any. -/
theorem interleavedStreaming : Obligations.InterleavedStreaming :=
  fun _ _ _ => execAll_crc_of_not_breaksStream

end Sys2Proof.Proofs
end

section
/-! SUPPORT. Sealing a frame: what `FRM.SFX` leaves in the buffer, that the sealed frame passes the check of its
trailer, and that its raw checksum is 0. -/

namespace Sys2Proof.Machine

/-! ### The bytes of a sealed frame -/

/-- `FRM.SFX` with room appends the trailer of the frame (rule R87). -/
theorem exec_frmSfx_of_frame {s : State} {F : List Byte} (hovf : s.ovf = false) (hroom : s.len + 2 ≤ s.frameCap)
    (hF : s.frame = .ok F) : exec .frmSfx s = .next (s.sealedWith F) := by
  rw [exec_frmSfx_of_room hovf hroom, hF, onOk_ok]

/-- Sealing a frame leaves in the buffer what pushing the two bytes of its trailer does. -/
theorem State.readByte_sealedWith (s : State) (F : List Byte) (k : Nat) :
    (s.sealedWith F).readByte k = ((s.pushed (highByte (crc16 F))).pushed (lowByte (crc16 F))).readByte k :=
  State.readByte_of_same_buffer rfl rfl k

/-- The high byte of the checksum is stored first (rules R32 and R53). -/
theorem State.readByte_sealedWith_len {s : State} (hroom : s.len + 2 ≤ s.frameCap) (F : List Byte) :
    (s.sealedWith F).readByte s.len = .ok (highByte (crc16 F)) := by
  have hk : s.len ≠ (s.pushed (highByte (crc16 F))).len := (Nat.lt_succ_self s.len).ne
  rw [State.readByte_sealedWith, State.readByte_pushed_other hk, State.readByte_pushed_len (by omega)]

/-- The low byte of the checksum is stored second (rules R32 and R53). -/
theorem State.readByte_sealedWith_len_succ {s : State} (hroom : s.len + 2 ≤ s.frameCap) (F : List Byte) :
    (s.sealedWith F).readByte (s.len + 1) = .ok (lowByte (crc16 F)) := by
  rw [State.readByte_sealedWith]
  exact State.readByte_pushed_len (s := s.pushed (highByte (crc16 F))) hroom _

/-- Sealing a frame leaves every byte but the two of its trailer. -/
theorem State.readByte_sealedWith_other {s : State} {k : Nat} (h0 : k ≠ s.len) (h1 : k ≠ s.len + 1)
    (F : List Byte) : (s.sealedWith F).readByte k = s.readByte k := by
  rw [State.readByte_sealedWith, State.readByte_pushed_other (s := s.pushed (highByte (crc16 F))) h1,
    State.readByte_pushed_other h0]

/-- The sealed frame is the frame with its trailer behind it. -/
theorem State.frame_sealedWith {s : State} {F : List Byte} (hF : s.frame = .ok F) (hroom : s.len + 2 ≤ s.frameCap) :
    (s.sealedWith F).frame = .ok (F ++ trailerOf (crc16 F)) := by
  have hhigh := State.frame_pushed hF (by omega) (highByte (crc16 F))
  have hlow := State.frame_pushed hhigh hroom (lowByte (crc16 F))
  rw [List.append_assoc] at hlow
  exact State.frame_ok_of_same_buffer hlow rfl rfl rfl

/-! ### The check and the checksum of a sealed frame -/

/-- The payload of a sealed frame is the frame that was sealed. -/
theorem take_append_trailerOf {F : List Byte} {wire : Half} {n : Nat} (hn : n = F.length + 2) :
    (F ++ trailerOf wire).take (n - 2) = F := by
  rw [hn, Nat.add_sub_cancel, List.take_left]

/-- A frame with its own trailer behind it passes the check of rule R96. -/
theorem trailerOk_append_trailerOf (F : List Byte) : trailerOk (F ++ trailerOf (crc16 F)) = true := by
  have hpayload : (F ++ trailerOf (crc16 F)).take ((F ++ trailerOf (crc16 F)).length - 2) = F :=
    take_append_trailerOf List.length_append
  rw [trailerOk, hpayload]
  simp [trailerOf]

/-- `FRM.VAL` on a sealed frame computes the checksum its trailer carries, and accepts it (rule R88). -/
theorem State.judged_append_trailerOf {s : State} {F : List Byte} (hlen : s.len = F.length + 2) :
    s.judged (F ++ trailerOf (crc16 F)) =
      { s with crc := crcRaw F, crcOut := crc16 F, crcOk := true,
               out := some { st := .ok, dout := (crc16 F).setWidth 32 } } := by
  simp only [State.judged, take_append_trailerOf hlen, trailerOk_append_trailerOf, if_true]

/-- The raw checksum over a frame and its own trailer is 0 (rule R80 law 3): the high byte of the wire checksum is the
low byte of the raw one. -/
theorem crcRaw_append_trailerOf (F : List Byte) : crcRaw (F ++ trailerOf (crc16 F)) = 0#16 := by
  rw [crcRaw_append, trailerOf, crc16, highByte_swap16, lowByte_swap16]
  exact crcStep_lowByte_highByte (crcRaw F)

/-- So is the wire checksum. -/
theorem crc16_append_trailerOf (F : List Byte) : crc16 (F ++ trailerOf (crc16 F)) = 0#16 := by
  rw [crc16, crcRaw_append_trailerOf]
  rfl

end Sys2Proof.Machine
end

section
/-! SUPPORT. The query ROM: `QRY` with an index inside it, and the illegal words above. -/

namespace Sys2Proof.Machine

/-- All that `QRY` does with an index of the query ROM (rule R89). -/
theorem exec_qry_of_lt {i : Byte} (h : i.toNat < 8) (s : State) : exec (.qry i) s =
    .next { s with out := some { st := .ok, dout := (queryByte i).setWidth 32 } } :=
  if_pos (decide_eq_true (Nat.le_of_lt_succ h))

/-- The bytes of the query ROM, zero-extended to the 32 bits of `dout` (rules R17 and R59). -/
theorem queryByte_setWidth {i : Byte} (h : i.toNat < 8) : (queryByte i).setWidth 32 =
    ([0x01#32, 0x04#32, 0x00#32, 0x00#32, 0x00#32, 0x0A#32, 0x70#32, 0x0D#32] : List Word)[i.toNat] := by
  have hget : queryByte i = queryBytes[i.toNat] := (List.getElem_eq_getD _).symm
  rw [hget]
  exact (List.getElem_map (BitVec.setWidth 32) (h := h)).symm

/-- The word made of an opcode and an operand is illegal where the operand is not below the opcode's bound. -/
theorem decode_append_error_iff {op : BitVec 4} {a : Byte} :
    (∃ why, decode (op ++ a) = .error why) ↔ operandBound op.toNat ≤ a.toNat := by
  obtain ⟨hop, harg⟩ := Laws.fields_of_append op a
  rw [decode_error_iff, hop, harg]

end Sys2Proof.Machine
end

section
/-! The statements of 41_frame_buffer.md. -/

namespace Sys2Proof.Proofs

open Sys2Proof.Machine

/-- Settles O17: by what the command does; its opcode takes no operand. -/
theorem frmClrResult : Obligations.FrmClrResult :=
  ⟨rfl, fun _ => decode_error_of_nonzero_arg rfl, exec_frmClr⟩

/-- Settles O18: a full buffer stops the push, and with room the byte goes to `LEN`. -/
theorem frmPushResult : Obligations.FrmPushResult := by
  intro b s
  have hword : (encode (.frmPush b)).toNat = 0x700 + b.toNat := by simp [encode_toNat, opcode, operand]
  refine ⟨hword, fun hfull => exec_frmPush_of_full hfull b, fun hroom => ?_, fun _ => lengthWord_toNat⟩
  exact ⟨s.pushed b, exec_frmPush_of_lt hroom b, rfl, State.readByte_pushed_len hroom b,
    fun _ ha => State.readByte_pushed_other ha b⟩

/-- Settles O19: without room nothing is stored, and with room the two bytes of the trailer are pushed. -/
theorem frmSfxResult : Obligations.FrmSfxResult := by
  refine ⟨rfl, fun _ => decode_error_of_nonzero_arg rfl, fun s => ⟨exec_frmSfx_of_full, ?_⟩⟩
  intro F hovf hroom hF
  exact ⟨s.sealedWith F, exec_frmSfx_of_frame hovf hroom hF, rfl, State.readByte_sealedWith_len hroom F,
    State.readByte_sealedWith_len_succ hroom F, fun _ h0 h1 => State.readByte_sealedWith_other h0 h1 F⟩

/-- Settles O20: `FRM.VAL` judges the frame with its trailer behind it, and computes the checksum over the same bytes
as `FRM.SFX`. -/
theorem sealThenValidate : Obligations.SealThenValidate := by
  intro s hinv hovf hroom
  obtain ⟨F, hF⟩ := hinv.exists_frame
  have hseal := exec_frmSfx_of_frame hovf hroom hF
  have hval := exec_frmVal_of_frame (s := s.sealedWith F) hovf (Nat.le_add_left 2 s.len)
    (State.frame_sealedWith hF hroom)
  have hlen : (s.sealedWith F).len = F.length + 2 := congrArg (· + 2) (State.frame_length hF).symm
  rw [State.judged_append_trailerOf hlen] at hval
  exact ⟨_, _, (crc16 F).setWidth 32, hseal, hval, rfl, rfl, rfl⟩

/-- Settles O21: the checksum over a frame and its trailer is 0, and so are the two bytes of the second trailer. -/
theorem secondSealAppendsZeros : Obligations.SecondSealAppendsZeros := by
  intro s hinv hovf hroom
  obtain ⟨F, hF⟩ := hinv.exists_frame
  have hroom₁ : s.len + 2 ≤ s.frameCap := by omega
  have hroom₂ : (s.sealedWith F).len + 2 ≤ (s.sealedWith F).frameCap := hroom
  have hseal₁ := exec_frmSfx_of_frame hovf hroom₁ hF
  have hseal₂ := exec_frmSfx_of_frame (s := s.sealedWith F) hovf hroom₂ (State.frame_sealedWith hF hroom₁)
  have hwire := crc16_append_trailerOf F
  have hhigh := State.readByte_sealedWith_len hroom₂ (F ++ trailerOf (crc16 F))
  have hlow := State.readByte_sealedWith_len_succ hroom₂ (F ++ trailerOf (crc16 F))
  rw [hwire] at hhigh hlow
  refine ⟨_, _, hseal₁, hseal₂, ?_, crcRaw_append_trailerOf F, hhigh, hlow⟩
  simp only [State.sealedWith, hwire]
  rfl

/-- Settles O22: an index below 8 reads the ROM, and the words above are illegal. -/
theorem qryResult : Obligations.QryResult := by
  intro i s
  have hword : (encode (.qry i)).toNat = 0x500 + i.toNat := by simp [encode_toNat, opcode, operand]
  refine ⟨hword, fun h => ?_, fun h => ?_⟩
  · rw [exec_qry_of_lt h, queryByte_setWidth h]
  · have hillegal : ∃ why, decode (0x5#4 ++ i) = .error why := decode_append_error_iff.2 h
    exact ⟨hillegal, fun _ => step_of_isIllegalWord rfl (decode_error_iff_isIllegalWord.1 hillegal)⟩

end Sys2Proof.Proofs
end

section
/-! SUPPORT. A changed byte changes the checksum: an update is eight of the table's conditional shifts, so it loses
nothing of the checksum it starts from and nothing of the byte it takes in. -/

namespace Sys2Proof.Machine

/-! ### The update as shifts -/

/-- A byte has no bits above its eight. -/
theorem setWidth_ushiftRight_8 (n : Byte) : (n.setWidth 16 : Half) >>> 8 = 0#16 := by
  rw [← BitVec.setWidth_ushiftRight (by decide), BitVec.ushiftRight_eq_zero le_rfl, BitVec.setWidth_zero]

/-- Repeated, the conditional shift is still linear over XOR. -/
theorem tableShift_iterate_xor (k : Nat) (x y : Half) :
    tableShift^[k] (x ^^^ y) = tableShift^[k] x ^^^ tableShift^[k] y := by
  have hshift : Function.Semiconj₂ tableShift (· ^^^ ·) (· ^^^ ·) := tableShift_xor
  exact hshift.iterate k x y

/-- As long as the bits dropped are 0, the conditional shift applies no mask. -/
theorem tableShift_iterate_of_low_zero {k : Nat} {y : Half} (h : ∀ i < k, y.getLsbD i = false) :
    tableShift^[k] y = y >>> k := by
  induction k with
  | zero => rfl
  | succ k ih =>
    have hbit : (y >>> k).getLsbD 0 = false := by simpa using h k k.lt_succ_self
    rw [Function.iterate_succ_apply', ih fun i hi => h i (hi.trans k.lt_succ_self), tableShift, hbit,
      if_neg Bool.false_ne_true, ← BitVec.shiftRight_add]

/-- One update is eight conditional shifts of the checksum XOR the byte (rules R71 and R73). -/
theorem crcStep_eq_tableShift (c : Half) (b : Byte) : crcStep c b = tableShift^[8] (c ^^^ b.setWidth 16) := by
  generalize hx : c ^^^ b.setWidth 16 = x
  have hlow : ∀ i < 8, (x ^^^ (lowByte x).setWidth 16).getLsbD i = false := by
    intro i hi
    simp [lowByte, hi, show i < 16 by omega]
  have hhigh : (x ^^^ (lowByte x).setWidth 16) >>> 8 = c >>> 8 := by
    rw [BitVec.ushiftRight_xor_distrib, setWidth_ushiftRight_8, BitVec.xor_zero, ← hx, BitVec.ushiftRight_xor_distrib,
      setWidth_ushiftRight_8, BitVec.xor_zero]
  calc crcStep c b
      = c >>> 8 ^^^ tableEntry (lowByte x) := by rw [crcStep, hx]
    _ = tableShift^[8] (x ^^^ (lowByte x).setWidth 16) ^^^ tableShift^[8] ((lowByte x).setWidth 16) := by
        rw [tableShift_iterate_of_low_zero hlow, hhigh, tableEntry_eq]
    _ = tableShift^[8] (x ^^^ (lowByte x).setWidth 16 ^^^ (lowByte x).setWidth 16) :=
        (tableShift_iterate_xor 8 _ _).symm
    _ = tableShift^[8] x := by rw [BitVec.xor_assoc, BitVec.xor_self, BitVec.xor_zero]

/-- Updates by the same byte keep different checksums different. -/
theorem crcStep_left_injective (b : Byte) : Function.Injective (crcStep · b) := by
  intro c d h
  simp only [crcStep_eq_tableShift] at h
  exact (BitVec.xor_left_inj _).1 (tableShift_injective.iterate 8 h)

/-- So do updates by the same bytes, one after another. -/
theorem foldl_crcStep_injective (bytes : List Byte) : Function.Injective (bytes.foldl crcStep ·) := by
  induction bytes with
  | nil => exact fun _ _ h => h
  | cons b bytes ih => exact fun _ _ h => crcStep_left_injective b (ih h)

/-- Different bytes update the same checksum differently. -/
theorem crcStep_right_injective (c : Half) : Function.Injective (crcStep c) := by
  intro a b h
  rw [crcStep_eq_tableShift, crcStep_eq_tableShift] at h
  have hwide := congrArg (BitVec.setWidth 8) ((BitVec.xor_right_inj _).1 (tableShift_injective.iterate 8 h))
  simpa using hwide

/-- Two messages that differ in one byte have different checksums. -/
theorem crcRaw_ne_of_one_byte {a b : Byte} (h : a ≠ b) (before after : List Byte) :
    crcRaw (before ++ a :: after) ≠ crcRaw (before ++ b :: after) := by
  rw [crcRaw_append, crcRaw_append]
  exact fun heq => h (crcStep_right_injective _ (foldl_crcStep_injective after heq))

/-! ### The trailer -/

/-- The check of the trailer, as the two comparisons it makes (rule R96). -/
theorem trailerOk_iff {F : List Byte} :
    trailerOk F = true ↔ highByte (crc16 (F.take (F.length - 2))) = F.getD (F.length - 2) 0#8 ∧
      lowByte (crc16 (F.take (F.length - 2))) = F.getD (F.length - 1) 0#8 := by
  simp [trailerOk]

/-- A frame of at least two bytes whose trailer matches is its payload with the payload's trailer behind it. -/
theorem eq_append_trailerOf_of_trailerOk {F : List Byte} (hlen : 2 ≤ F.length) (h : trailerOk F = true) :
    F = F.take (F.length - 2) ++ trailerOf (crc16 (F.take (F.length - 2))) := by
  obtain ⟨hhigh, hlow⟩ := trailerOk_iff.1 h
  have hdrop : F.drop (F.length - 2) = [F.getD (F.length - 2) 0#8, F.getD (F.length - 1) 0#8] := by
    rw [List.drop_eq_getElem_cons (by omega), List.drop_eq_getElem_cons (by omega),
      List.drop_eq_nil_of_le (by omega), List.getD_eq_getElem _ _ (by omega), List.getD_eq_getElem _ _ (by omega)]
    simp only [show F.length - 2 + 1 = F.length - 1 by omega]
  rw [trailerOf, hhigh, hlow, ← hdrop, List.take_append_drop]

/-- The raw checksum over a frame whose trailer matches is 0 (rule R80 law 3). -/
theorem crcRaw_eq_zero_of_trailerOk {F : List Byte} (hlen : 2 ≤ F.length) (h : trailerOk F = true) :
    crcRaw F = 0#16 := by
  rw [eq_append_trailerOf_of_trailerOk hlen h, crcRaw_append_trailerOf]

/-- A matching trailer matches no longer after a change of one byte of the frame: the checksum over all of it is no
longer 0. -/
theorem trailerOk_set_eq_false {F : List Byte} {k : Nat} {b : Byte} (hlen : 2 ≤ F.length) (hk : k < F.length)
    (hb : F.getD k 0#8 ≠ b) (h : trailerOk F = true) : trailerOk (F.set k b) = false := by
  refine Bool.eq_false_iff.2 fun hset => ?_
  have hold : F = F.take k ++ F.getD k 0#8 :: F.drop (k + 1) := by
    rw [List.getD_eq_getElem _ _ hk, ← List.drop_eq_getElem_cons hk, List.take_append_drop]
  have hnew : F.set k b = F.take k ++ b :: F.drop (k + 1) := List.set_eq_take_append_cons_drop.trans (if_pos hk)
  refine crcRaw_ne_of_one_byte hb (F.take k) (F.drop (k + 1)) ?_
  rw [← hold, ← hnew, crcRaw_eq_zero_of_trailerOk hlen h,
    crcRaw_eq_zero_of_trailerOk (hlen.trans_eq List.length_set.symm) hset]

end Sys2Proof.Machine
end

section
/-! SUPPORT. `FRM.DEC`: the fields as bytes of the frame side by side, the gate in all its forms, and what a decoding
reads. -/

namespace Sys2Proof.Machine

/-! ### The fields -/

/-- The group at an offset of a frame: its two bytes, the one at the lower offset the more significant (rule R30). -/
def groupOf (F : List Byte) (a : Nat) : Half := F.getD a 0#8 ++ F.getD (a + 1) 0#8

/-- The pair at an offset of a frame: its two groups, in the order `SWAP_EN` selects (rule R104). -/
def pairOf (swap : Bool) (F : List Byte) (a : Nat) : Word :=
  if swap then groupOf F (a + 2) ++ groupOf F a else groupOf F a ++ groupOf F (a + 2)

/-- As a number, the group is that of the pure decoding. -/
theorem ofNat_groupAt (F : List Byte) (a : Nat) : BitVec.ofNat 16 (groupAt F a) = groupOf F a :=
  (append_byte_byte _ _).symm

/-- As a number, the pair is that of the pure decoding. -/
theorem ofNat_pairAt (swap : Bool) (F : List Byte) (a : Nat) :
    BitVec.ofNat 32 (pairAt swap F a) = pairOf swap F a := by
  have happend (x y : Nat) : groupOf F x ++ groupOf F y = BitVec.ofNat 32 (groupAt F x * 65536 + groupAt F y) := by
    rw [← ofNat_groupAt, ← ofNat_groupAt, append_half_half _ _ (groupAt_lt F x) (groupAt_lt F y)]
  cases swap with
  | false => exact (happend _ _).symm
  | true => exact (happend _ _).symm

/-- The pure decoding takes the fields from their offsets (rules R52, R103 and R104). -/
theorem fieldsOf_eq (swap : Bool) (F : List Byte) :
    fieldsOf swap F = { volt := groupOf F 3, curr := pairOf swap F 5, powr := pairOf swap F 9,
                        enrg := pairOf swap F 13, freq := groupOf F 17, pfac := groupOf F 19,
                        alrt := groupOf F 21 } := by
  simp only [fieldsOf, ofNat_groupAt, ofNat_pairAt]

/-! ### The gate -/

/-- The gate as the inequality it computes. -/
theorem gateRejects_iff_natAbs {v : Half} {i p : Word} :
    gateRejects v i p = true ↔
      2 * (1000 * (p.toNat : Int) - (i.toNat : Int) * (v.toNat : Int)).natAbs > 1000 * p.toNat :=
  decide_eq_true_iff

/-- The gate as the inequality of integers that rule R105 writes. -/
theorem gateRejects_iff_abs {v : Half} {i p : Word} :
    gateRejects v i p = true ↔ 2 * |1000 * (p.toNat : Int) - i.toNat * v.toNat| > 1000 * p.toNat := by
  rw [gateRejects_iff_natAbs, Int.abs_eq_natAbs]
  omega

/-- The gate rejects exactly where `i*v` lies outside `500*p .. 1500*p` (rule R105). -/
theorem gateRejects_iff_bounds {v : Half} {i p : Word} :
    gateRejects v i p = true ↔ i.toNat * v.toNat < 500 * p.toNat ∨ i.toNat * v.toNat > 1500 * p.toNat := by
  rw [gateRejects_iff_natAbs, ← Nat.cast_mul]
  omega

/-- The fields make no Reading where the power is 0 without the guard strap, or the gate rejects (rules R105 and
R106). -/
theorem accepted_eq_false_iff {guard : Bool} {r : Results} :
    accepted guard r = false ↔
      (r.powr = 0#32 ∧ guard = false) ∨ (r.powr ≠ 0#32 ∧ gateRejects r.volt r.curr r.powr = true) := by
  rw [← Bool.not_eq_true, accepted_eq_true_iff, gateRejects_iff_bounds]
  by_cases hp : r.powr = 0#32
  · simp [hp]
  · simp only [hp, false_and, false_or, ne_eq, not_false_eq_true, true_and]
    omega

/-- The source's delta on the raw values (rules R105 and R108). -/
theorem Results.delta_eq (r : Results) :
    r.delta = (1000 * r.powr.toNat - r.curr.toNat * r.volt.toNat) / (1000 * r.powr.toNat) := by
  have hscaled : r.power - r.current * r.voltage =
      (1000 * r.powr.toNat - r.curr.toNat * r.volt.toNat) / 10000 := by
    simp only [Results.power, Results.current, Results.voltage, Config.scaleTenth, Config.scaleThousandth]
    push_cast
    ring
  have hpower : r.power = 1000 * r.powr.toNat / 10000 := by
    simp only [Results.power, Config.scaleTenth]
    push_cast
    ring
  rw [Results.delta, hscaled, hpower, div_div_div_cancel_right₀ (by norm_num)]

/-- The source rejects exactly where the gate does: the denominator of delta is positive (rule R105). -/
theorem gateRejects_iff_delta {r : Results} (hp : r.powr ≠ 0#32) :
    gateRejects r.volt r.curr r.powr = true ↔ |r.delta| > 1 / 2 := by
  have hraw : 0 < r.powr.toNat := Nat.pos_of_ne_zero fun h => hp (BitVec.eq_of_toNat_eq h)
  have hpos : (0 : ℚ) < 1000 * r.powr.toNat := by positivity
  have hint : |r.delta| > 1 / 2 ↔
      (1000 * r.powr.toNat : ℚ) < 2 * |1000 * (r.powr.toNat : ℚ) - r.curr.toNat * r.volt.toNat| := by
    rw [Results.delta_eq, abs_div, abs_of_pos hpos, gt_iff_lt, div_lt_div_iff₀ two_pos hpos, one_mul, mul_comm _ 2]
  rw [hint, gateRejects_iff_abs]
  exact_mod_cast Iff.rfl

/-- The products of the gate fit the widths that rule R105 gives. -/
theorem Results.gate_products_lt (r : Results) :
    r.curr.toNat * r.volt.toNat < 2 ^ 48 ∧ 1000 * r.powr.toNat < 2 ^ 42 := by
  have hp : r.powr.toNat < 2 ^ 32 := r.powr.isLt
  have hiv : r.curr.toNat * r.volt.toNat < 2 ^ 32 * 2 ^ 16 := Nat.mul_lt_mul'' r.curr.isLt r.volt.isLt
  exact ⟨hiv, by omega⟩

/-! ### What a decoding reads -/

/-- What `FRM.DEC` answers a host: the response, `RVALID` and `DIVZ`, and the result registers where they are
readable. -/
structure State.SameDecoding (s t : State) : Prop where
  out : t.out = s.out
  rValid : t.rValid = s.rValid
  divZ : t.divZ = s.divZ
  res : s.rValid = true → t.res = s.res

/-- A failing decode answers the same from every state. -/
theorem State.SameDecoding.notDecoded (s t : State) (divZ : Bool) (st : Status) :
    (s.notDecoded divZ st).SameDecoding (t.notDecoded divZ st) := ⟨rfl, rfl, rfl, nofun⟩

/-- So does a successful decode of the same fields. -/
theorem State.SameDecoding.decoded (s t : State) (r : Results) : (s.decoded r).SameDecoding (t.decoded r) :=
  ⟨rfl, rfl, rfl, fun _ => rfl⟩

/-- `FRM.DEC` reads `CRCOK`, `LEN`, the straps and the fields, and nothing else (rules R107 and R110). -/
theorem exec_frmDec_congr {s t s' : State} (hok : s.crcOk = t.crcOk) (hlen : s.len = t.len)
    (hguard : s.zeroPowerGuard = t.zeroPowerGuard) (hfields : s.readFields = t.readFields)
    (h : exec .frmDec s = .next s') : ∃ t', exec .frmDec t = .next t' ∧ s'.SameDecoding t' := by
  cases effect_of_exec h with
  | responds hi => nomatch hi
  | decNotValidated hok' => exact ⟨_, exec_frmDec_of_not_crcOk (hok ▸ hok'), .notDecoded _ _ _ _⟩
  | decShort hok' hshort => exact ⟨_, exec_frmDec_of_short (hok ▸ hok') (hlen ▸ hshort), .notDecoded _ _ _ _⟩
  | decRejected hok' hlen' hr hacc =>
    exact ⟨_, exec_frmDec_of_rejected (hok ▸ hok') (hlen ▸ hlen') (hfields ▸ hr) (hguard ▸ hacc), .notDecoded _ _ _ _⟩
  | decoded hok' hlen' hr hacc =>
    exact ⟨_, exec_frmDec_of_accepted (hok ▸ hok') (hlen ▸ hlen') (hfields ▸ hr) (hguard ▸ hacc), .decoded _ _ _⟩

/-! ### A readable Reading -/

/-- A readable Reading decodes again from the frame in the buffer (rule R13). -/
theorem State.Inv.exec_frmDec_of_rValid {s : State} (h : s.Inv) (hrv : s.rValid = true) :
    Machine.exec .frmDec s = .next (s.decoded s.res) := by
  obtain ⟨hok, -, hlen, F, hF, hres, hacc⟩ := h.reading hrv
  have hfields : s.readFields = .ok s.res := by rw [hres, State.readFields_of_frame hF (by omega)]
  exact exec_frmDec_of_accepted hok hlen hfields hacc

end Sys2Proof.Machine
end

section
/-! SUPPORT. `RD`: the selectors that need no Reading, those that do, and the flags word. -/

namespace Sys2Proof.Machine

/-- The flags word as a number (rule R13). -/
theorem State.flagsWord_eq (s : State) : s.flagsWord =
    BitVec.ofNat 32 (s.crcOk.toNat + 2 * s.rValid.toNat + 4 * s.ovf.toNat + 8 * s.divZ.toNat) := by
  unfold State.flagsWord
  generalize s.crcOk = c, s.rValid = r, s.ovf = o, s.divZ = d
  revert c r o d
  decide

/-- `RD` of a register that is always readable (rule R112). -/
theorem exec_rd_of_always {s : State} {sel : Byte} {d : Word} (h : s.selected sel = some (false, d)) :
    exec (.rd sel) s = .next { s with out := some { st := .ok, dout := d } } := by
  simp [exec, execRd, h]

/-- `RD` of a result register while there is a Reading (rule R112). -/
theorem exec_rd_of_rValid {s : State} {sel : Byte} {d : Word} (hrv : s.rValid = true)
    (h : s.selected sel = some (true, d)) :
    exec (.rd sel) s = .next { s with out := some { st := .ok, dout := d } } := by
  simp [exec, execRd, h, hrv]

/-- `RD` of a result register while there is none (rule R112). -/
theorem exec_rd_of_not_rValid {s : State} {sel : Byte} {d : Word} (hrv : s.rValid = false)
    (h : s.selected sel = some (true, d)) :
    exec (.rd sel) s = .next { s with out := some { st := .noReading, dout := 0#32 } } := by
  simp [exec, execRd, h, hrv]

/-- The selectors 4 to 10 name the result registers (rule R57). -/
theorem State.selected_of_result (s : State) {sel : Byte} (h4 : 4 ≤ sel.toNat) (h10 : sel.toNat ≤ 10) :
    ∃ d, s.selected sel = some (true, d) := by
  unfold State.selected
  generalize sel.toNat = n at h4 h10
  interval_cases n <;> exact ⟨_, rfl⟩

end Sys2Proof.Machine
end

section
/-! The statements of 42_frame_codec.md. -/

namespace Sys2Proof.Proofs

open Sys2Proof.Machine

/-- Settles O26: in each case by what the command does there; a readable Reading comes with a matching trailer. -/
theorem frmValResult : Obligations.FrmValResult := by
  refine ⟨rfl, fun _ => decode_error_of_nonzero_arg rfl, fun s => ⟨exec_frmVal_of_ovf, exec_frmVal_of_short, ?_, ?_⟩⟩
  · intro F hovf hlen hF
    refine ⟨exec_frmVal_of_frame hovf hlen hF, ?_⟩
    rw [trailerOk_iff, State.frame_length hF]
    rfl
  · intro hinv hrv
    obtain ⟨hok, -⟩ := hinv.reading hrv
    obtain ⟨hovf, hlen, F, hF, htrailer⟩ := hinv.validated hok
    have hval := exec_frmVal_of_frame hovf hlen hF
    have hjudged : (s.judged F).crcOk = true := htrailer
    exact ⟨_, hval, (exec_frmVal_crcOk_iff hval).1 hjudged, hjudged⟩

/-- Settles O27: the checksum over a frame with its trailer is 0, and no update loses a difference. -/
theorem changedByteIsDetected : Obligations.ChangedByteIsDetected :=
  fun _ _ _ => trailerOk_set_eq_false

/-- Settles O28: in each case by what the command does there; the fields make no Reading exactly where the power is 0
without the guard strap or the gate rejects. -/
theorem frmDecResult : Obligations.FrmDecResult := by
  refine ⟨rfl, fun _ => decode_error_of_nonzero_arg rfl,
    fun s => ⟨exec_frmDec_of_not_crcOk, exec_frmDec_of_short, ?_⟩⟩
  intro F hok hlen hF group pair r
  have hfields : s.readFields = .ok r := by
    rw [State.readFields_of_frame hF (by omega), fieldsOf_eq]
    rfl
  split_ifs with hzero hreject
  · rw [exec_frmDec_of_rejected hok hlen hfields (accepted_eq_false_iff.2 (.inl hzero)), decide_eq_true hzero.1]
    rfl
  · have hgate := hreject.imp_right gateRejects_iff_natAbs.2
    rw [exec_frmDec_of_rejected hok hlen hfields (accepted_eq_false_iff.2 (.inr hgate)), decide_eq_false hgate.1]
    rfl
  · have hacc : accepted s.zeroPowerGuard r = true := Bool.eq_true_of_not_eq_false fun h =>
      (accepted_eq_false_iff.1 h).elim hzero fun hgate => hreject (hgate.imp_right gateRejects_iff_natAbs.1)
    exact exec_frmDec_of_accepted hok hlen hfields hacc

/-- Settles O29: the source's delta has a positive denominator, and the rest is arithmetic of integers. -/
theorem gateIsExact : Obligations.GateIsExact :=
  fun r hp => ⟨r.delta_eq, gateRejects_iff_delta hp, gateRejects_iff_abs, gateRejects_iff_bounds, r.gate_products_lt⟩

/-- Settles O30: selector by selector, and by the invariant a readable Reading decodes again. -/
theorem rdResult : Obligations.RdResult := by
  intro s responds
  have hword (sel : Byte) : (encode (.rd sel)).toNat = 0xB00 + sel.toNat := by simp [encode_toNat, opcode, operand]
  have hflags : exec (.rd 3#8) s = responds .ok
      (BitVec.ofNat 32 (s.crcOk.toNat + 2 * s.rValid.toNat + 4 * s.ovf.toNat + 8 * s.divZ.toNat)) := by
    rw [← State.flagsWord_eq]
    exact exec_rd_of_always rfl
  refine ⟨hword, exec_rd_of_always rfl, exec_rd_of_always rfl, exec_rd_of_always rfl, lengthWord_toNat, hflags,
    ?noReading, ?reading, ?illegal, ?decodesAgain⟩
  case noReading =>
    intro hrv sel h4 h10
    obtain ⟨d, hsel⟩ := s.selected_of_result h4 h10
    exact exec_rd_of_not_rValid hrv hsel
  case reading =>
    intro hrv
    have hread {sel : Byte} {d : Word} (h : s.selected sel = some (true, d)) : exec (.rd sel) s = responds .ok d :=
      exec_rd_of_rValid hrv h
    exact ⟨hread rfl, hread rfl, hread rfl, hread rfl, hread rfl, hread rfl, hread rfl⟩
  case illegal =>
    intro sel h
    have hillegal : ∃ why, decode (0xB#4 ++ sel) = .error why := decode_append_error_iff.2 h
    exact ⟨hillegal, fun _ => step_of_isIllegalWord rfl (decode_error_iff_isIllegalWord.1 hillegal)⟩
  case decodesAgain =>
    intro hinv hrv
    obtain ⟨F, hF⟩ := hinv.exists_frame
    exact ⟨F, _, hF, hinv.exec_frmDec_of_rValid hrv, ⟨_, rfl⟩, rfl⟩

/-- Settles O31: two states that agree on the bytes 3 to 22 hold the same fields. -/
theorem decodeDependsOnFieldsOnly : Obligations.DecodeDependsOnFieldsOnly := by
  intro s t s' hok hlen hswap hguard hbytes h
  obtain ⟨t', ht, hsame⟩ := exec_frmDec_congr hok hlen hguard (State.readFields_congr hswap hbytes) h
  exact ⟨t', ht, hsame.out, hsame.rValid, hsame.divZ, hsame.res⟩

end Sys2Proof.Proofs
end

section
/-! SUPPORT. The commands that only respond, by their operand: the statuses they give where it is in range (rule R120),
and the answer to a term whose operand is not (rule R125). -/

namespace Sys2Proof.Machine

/-! ### The operand of `RD` -/

/-- The selectors below 4 name the registers that are always readable (rule R57). -/
theorem State.selected_of_always (s : State) {sel : Byte} (h : sel.toNat < 4) :
    ∃ d, s.selected sel = some (false, d) := by
  unfold State.selected
  generalize sel.toNat = n at h
  interval_cases n <;> exact ⟨_, rfl⟩

/-- The selectors above 10 name no register (rule R58). -/
theorem State.selected_of_gt (s : State) {sel : Byte} (h : 10 < sel.toNat) : s.selected sel = none := by
  unfold State.selected
  split
  case h_12 => rfl
  all_goals omega

/-- `RD` responds `OK`, or for a result register perhaps `NoReading` (rules R112 and R120). -/
theorem exec_rd_status {sel : Byte} (h : sel.toNat ≤ 10) (s : State) :
    ∃ r, exec (.rd sel) s = .next { s with out := some r } ∧ r.st ∈ mayRespond (.rd sel) := by
  obtain hlow | hhigh := Nat.lt_or_ge sel.toNat 4
  · obtain ⟨d, hsel⟩ := s.selected_of_always hlow
    exact ⟨_, exec_rd_of_always hsel, by simp [mayRespond, hlow.not_ge]⟩
  · obtain ⟨d, hsel⟩ := s.selected_of_result hhigh h
    obtain hrv | hrv := Bool.eq_false_or_eq_true s.rValid
    · exact ⟨_, exec_rd_of_rValid hrv hsel, by simp [mayRespond, hhigh]⟩
    · exact ⟨_, exec_rd_of_not_rValid hrv hsel, by simp [mayRespond, hhigh]⟩

/-! ### The statuses of a legal command -/

/-- `TBL`, `QRY` and `RD` with an operand in range respond a status that rule R120 lists for them. -/
theorem exec_status_of_onlyResponds {i : Instr} (hi : onlyResponds i = true) (hwf : i.wellFormed = true) (s : State) :
    ∃ r, exec i s = .next { s with out := some r } ∧ r.st ∈ mayRespond i := by
  cases i with
  | tbl k => exact ⟨_, exec_tbl k s, List.mem_singleton_self _⟩
  | qry k => exact ⟨_, exec_qry_of_lt (Nat.lt_succ_of_le (of_decide_eq_true hwf)) s, List.mem_singleton_self _⟩
  | rd sel => exact exec_rd_status (of_decide_eq_true hwf) s
  | _ => nomatch hi

/-- A legal command that answers responds a status that rule R120 lists for it. -/
theorem exec_status {i : Instr} {s t : State} (hwf : i.wellFormed = true) (h : exec i s = .next t) :
    ∃ r, t.out = some r ∧ r.st ∈ mayRespond i := by
  cases effect_of_exec h with
  | responds hi r =>
    obtain ⟨r', hr', hst⟩ := exec_status_of_onlyResponds hi hwf s
    exact ⟨r', congrArg State.out (Host.Outcome.next.inj (h.symm.trans hr')), hst⟩
  | @judged F hovf hlen hF => exact ⟨_, rfl, by cases trailerOk F <;> simp [mayRespond]⟩
  | _ => exact ⟨_, rfl, by simp [mayRespond]⟩

/-- The code of a status has three bits (rule R120). -/
theorem Status.code_lt (st : Status) : st.code.toNat < 8 := by
  cases st <;> decide

/-! ### Terms with an operand out of range -/

/-- The terms that are not legal: `QRY` above 7 and `RD` above 10 (rules R57 and R58). -/
theorem wellFormed_eq_false_iff {i : Instr} :
    i.wellFormed = false ↔ (∃ k : Byte, i = .qry k ∧ 7 < k.toNat) ∨ ∃ sel : Byte, i = .rd sel ∧ 10 < sel.toNat := by
  cases i <;> simp [Instr.wellFormed, queryIndexOk, selectorOk]

/-- The word of such a term is illegal (rule R58). -/
theorem isIllegalWord_encode {i : Instr} (h : i.wellFormed = false) : isIllegalWord (encode i) := by
  refine decode_error_iff_isIllegalWord.1 (decode_append_error_iff.2 ?_)
  obtain ⟨k, rfl, hk⟩ | ⟨sel, rfl, hsel⟩ := wellFormed_eq_false_iff.1 h
  · exact hk
  · exact hsel

/-- Such a term is answered `IllegalCommand`, and changes nothing but the response (rule R125, log entry 8). -/
theorem exec_of_not_wellFormed {i : Instr} (h : i.wellFormed = false) (s : State) :
    exec i s = .next { s with out := some { st := .illegalCommand, dout := 0#32 } } := by
  obtain ⟨k, rfl, hk⟩ | ⟨sel, rfl, hsel⟩ := wellFormed_eq_false_iff.1 h
  · exact if_neg fun hok => (of_decide_eq_true hok).not_gt hk
  · simp only [exec, execRd, s.selected_of_gt hsel, State.illegalCommand_eq]

end Sys2Proof.Machine
end

section
/-! The statements of 60_exceptions.md. -/

namespace Sys2Proof.Proofs

open Sys2Proof.Machine

/-- Settles O43: the statuses by the ways a command can end. -/
theorem statusCodes : Obligations.StatusCodes := by
  refine ⟨⟨rfl, rfl, rfl, rfl, rfl, rfl, rfl, rfl⟩, Status.code_lt, fun i s t r hwf h hr => ?_⟩
  obtain ⟨r', hr', hst⟩ := exec_status hwf h
  obtain rfl := Option.some.inj (hr'.symm.trans hr)
  exact hst

/-- Settles O45: the term and the step on its illegal word have the same answer. -/
theorem illFormedCommandAnswersAsItsWord : Obligations.IllFormedCommandAnswersAsItsWord := by
  intro i s ws h
  have hexec := exec_of_not_wellFormed h { s with cmds := ws }
  have hstep := step_of_isIllegalWord (s := { s with cmds := encode i :: ws }) rfl (isIllegalWord_encode h)
  exact ⟨hexec.trans hstep.symm, hexec⟩

end Sys2Proof.Proofs
end

section
/-! The statements of 70_reset_and_hazards.md. -/

namespace Sys2Proof.Proofs

open Sys2Proof.Machine

/-- Settles O36: after reset the frame is empty with room for a byte and every flag is clear, which decides the case of
each named command; the invariant holds, so every command answers. -/
theorem firstCommandAfterReset : Obligations.FirstCommandAfterReset := by
  intro sw zp cap hcap s
  have hempty : s.frame = .ok [] := State.frame_of_len_zero rfl
  have hroom : s.len < s.frameCap := Nat.zero_lt_of_lt hcap
  obtain ⟨d, hvolt⟩ := s.selected_of_result (sel := 4#8) (by decide) (by decide)
  refine ⟨fun b => ⟨_, exec_crcUpd b s, rfl⟩, fun b => ?push, ?val, ?dec, ?rd, ?every⟩
  case push => exact ⟨s.pushed b, exec_frmPush_of_lt hroom b, State.frame_pushed hempty hroom b, rfl⟩
  case val => exact exec_frmVal_of_short (s := s) rfl Nat.zero_lt_two
  case dec => exact exec_frmDec_of_not_crcOk (s := s) rfl
  case rd => exact exec_rd_of_not_rValid (s := s) rfl hvolt
  case every => exact (State.inv_resetWith sw zp hcap).exec_responds

end Sys2Proof.Proofs
end

section
/-! SUPPORT. Where an access to the frame buffer has no answer, and where one always has (log entries 5 and 6). -/

namespace Sys2Proof.Machine

/-! ### The memory as a list -/

/-- An index that some entry lists holds a byte, in a memory of any order. -/
theorem exists_memLookup_of_listed {a : Nat} {m : Memory} (h : ∃ c ∈ m, c.1 = a) : ∃ d, memLookup a m = some d := by
  obtain ⟨c, hc, rfl⟩ := h
  induction m with
  | nil => cases hc
  | cons e m ih =>
    by_cases he : c.1 = e.1
    · exact ⟨e.2, if_pos he⟩
    · have hcm : c ∈ m := (List.mem_cons.1 hc).resolve_left fun hce => he (congrArg Prod.fst hce)
      simpa [memLookup, he] using ih hcm

/-! ### One byte -/

/-- There is no byte at or beyond `FRAME_CAP` to read (rule R36). -/
theorem State.readByte_of_frameCap_le {s : State} {a : Nat} (h : s.frameCap ≤ a) :
    s.readByte a = .error (.bufOutOfRange a) := if_neg h.not_gt

/-- There is no byte at or beyond `FRAME_CAP` to write (rule R36). -/
theorem State.writeByte_of_frameCap_le {s : State} {a : Nat} (h : s.frameCap ≤ a) (b : Byte) :
    s.writeByte a b = .error (.bufOutOfRange a) := if_neg h.not_gt

theorem State.readByte_of_listed {s : State} {a : Nat} (ha : a < s.frameCap) (h : ∃ c ∈ s.buf, c.1 = a) :
    ∃ d, s.readByte a = .ok d := by
  obtain ⟨d, hd⟩ := exists_memLookup_of_listed h
  exact ⟨d, State.readByte_eq_ok.2 ⟨ha, hd⟩⟩

/-- A byte inside the buffer that nothing has written has no value (rule R15). -/
theorem State.readByte_of_unlisted {s : State} {a : Nat} (ha : a < s.frameCap) (h : ∀ c ∈ s.buf, c.1 ≠ a) :
    s.readByte a = .error (.bufUnwritten a) := by
  simp [State.readByte, ha, memLookup_unlisted h]

end Sys2Proof.Machine
end

section
/-! The statements on the model's choices (log entries 1, 2, 4, 5 and 6). -/

namespace Sys2Proof.Proofs

open Sys2Proof.Machine

/-- Settles O7: the step's case of an empty port. -/
theorem stepWithoutCommand : Obligations.StepWithoutCommand := fun _ h => step_nil h

/-- Settles O35: by the values the reset state is written with. -/
theorem resetModelChoices : Obligations.ResetModelChoices :=
  ⟨rfl, rfl, rfl, rfl, rfl, rfl, rfl, rfl, rfl, rfl⟩

/-- Settles O44: by the bound on the index, and inside the buffer by whether an entry lists it. -/
theorem bufferAccessStops : Obligations.BufferAccessStops := by
  intro s a b
  refine ⟨fun hge => ?outside, fun hlt => ⟨?written, ?listed, ?unlisted⟩⟩
  case outside => exact ⟨State.readByte_of_frameCap_le hge, State.writeByte_of_frameCap_le hge b⟩
  case written =>
    have hw := State.writeByte_of_lt hlt b
    exact ⟨_, hw, State.readByte_writeByte_self hw⟩
  case listed => exact State.readByte_of_listed hlt
  case unlisted => exact State.readByte_of_unlisted hlt

end Sys2Proof.Proofs
end
